-- ==== Sys2Proof/Word.lean ====
section
/-! DEFINITION. The words of the GS-808: bytes, station addresses, frames, and the index types of its tables
(spec 00_scope.md, Conventions). -/

namespace Sys2Proof

/-- One byte of a frame. -/
abbrev Byte := BitVec 8

/-- A station address, its first transmitted byte in bits 47 to 40. -/
abbrev Addr := BitVec 48

/-- A frame from the first byte of the destination address to the last byte of the FCS. -/
abbrev Frame := List Byte

/-- A port number, 0 to 7. -/
abbrev Port := Fin 8

/-- A slot of the reservation table, 0 to 127 (R17). -/
abbrev Slot := Fin 128

/-- An index of the master table, 0 to 15 (R96). -/
abbrev MasterIndex := Fin 16

/-- A place of the station table, 0 to 255 (R167). -/
abbrev Place := Fin 256

end Sys2Proof
end

