-- ==== Sys2Proof/Syntax.lean ====
section
/-! DEFINITION. The commands of the GS-808: one constructor of `Instr` for each row of spec/opcode_table.json.
The table gives its rows no operand fields, so an event carries what tells it from others of its kind, and a row
that serves a request takes it from the queue in which the spec lets it wait (assumption 2). -/

namespace Sys2Proof

/-- The two port speeds, 100 and 1000 Mb/s (spec 00_scope.md, Frame lengths and wire time). -/
inductive Speed where
  | mb100
  | mb1000
deriving DecidableEq, Repr

/-- The leg numbers of a reservation: 0 forward, 1 return (R20). -/
inductive LegNo where
  | leg0
  | leg1
deriving DecidableEq, Repr

/-- The owner of a window record: BEACON, or a stream slot with a leg number (R49). -/
inductive WindowOwner where
  | beacon
  | leg (slot : Slot) (n : LegNo)
deriving DecidableEq, Repr

/-- The three PHY status lines of one port, each asserted or negated (R156). -/
structure PhyLines where
  link : Bool
  speed : Bool
  fault : Bool
deriving DecidableEq, Repr

/-- The strap lines ADM, CYC and UNIT (R3). -/
structure Straps where
  adm : Port
  cyc : Fin 4
  unit : Fin 16
deriving DecidableEq, Repr

/-- The commands: one constructor per row of spec/opcode_table.json. -/
inductive Instr where
  /-- RESET_ASSERTED (R16). -/
  | resetAsserted
  /-- RESET_RELEASED (R3), with the strap levels at the release. -/
  | resetReleased (straps : Straps)
  /-- BASE_CYCLE_START (R1), with the PHY line levels at the sample (R156). -/
  | baseCycleStart (lines : Vector PhyLines 8)
  /-- END_OF_SETTLE_PERIOD (R10). -/
  | endOfSettlePeriod
  /-- HYPERCYCLE_BOUNDARY (R4). -/
  | hypercycleBoundary
  /-- SWEEP (R174). -/
  | sweep
  /-- WINDOW_OPENING (R142): the port and the window record the event names (R11). -/
  | windowOpening (port : Port) (owner : WindowOwner)
  /-- WINDOW_END (R145) of the port's current instance. -/
  | windowEnd (port : Port)
  /-- FRAME_RECEIVED (R122): the arrival port and the whole frame. -/
  | frameReceived (port : Port) (frame : Frame)
  /-- QUERY (R104): the first QUERY handed on by step 4 of R101. -/
  | query
  /-- READ_CALENDAR (R67): the first READ_CALENDAR handed on by step 4 of R101. -/
  | readCalendar
  /-- READ_PORT (R186): the first READ_PORT handed on by step 4 of R101. -/
  | readPort
  /-- CLAIM (R77): the CLAIM at the head of the request queue. -/
  | claim
  /-- TAKE_UP_WAITING_CLAIM (R75). -/
  | takeUpWaitingClaim
  /-- RELEASE (R92): the RELEASE at the head of the request queue. -/
  | release
  /-- HOLD (R179): the HOLD at the head of the request queue. -/
  | hold
  /-- RESUME (R179): the RESUME at the head of the request queue. -/
  | resume
  /-- SET_PORT_POLICY (R180): the one at the head of the request queue. -/
  | setPortPolicy
  /-- SET_TIMING (R182): the one at the head of the request queue. -/
  | setTiming
  /-- SET_AGE (R183): the one at the head of the request queue. -/
  | setAge
  /-- CLEAR_PORT (R184): the one at the head of the request queue. -/
  | clearPort
  /-- CLEAR_CELL (R185): the one at the head of the request queue. -/
  | clearCell
  /-- FRAME_READY (R131): the oldest waiting frame of the leg's hold queue. -/
  | frameReady (slot : Slot) (leg : LegNo)
  /-- FRAME_TRANSMIT_END (R139) of the port's transmitter. -/
  | frameTransmitEnd (port : Port)
deriving DecidableEq, Repr

end Sys2Proof
end

