-- ==== Sys2Proof/Decode.lean ====
section
/-! DEFINITION. `decodeTableWord`, over the rows of spec/opcode_table.json that give bits. No row does (every row's
"fields" is empty and none has a "fixed" pattern), so no word spells a command. What the device decodes from a frame,
the control header and the request bodies of R189, is in Machine/Operands.lean. -/

namespace Sys2Proof

/-- The command that a word of `nbits` bits spells by the table's bits: none, for no row of the table has bits. -/
def decodeTableWord (_nbits _w : Nat) : Option Instr := none

end Sys2Proof
end

