-- ==== Sys2Proof/Machine/Numbers.lean ====
section
/-! DEFINITION. The arithmetic of time, wire lengths and counters (spec 00_scope.md Conventions; R2, R7, R13, R80,
R173). -/

namespace Sys2Proof.Machine

/-- L, the length of the base cycle in ticks (R2). -/
def baseCycleTicks (cyc : Fin 4) : Nat :=
  match cyc with
  | 0 => 15625
  | 1 => 31250
  | 2 => 62500
  | 3 => 125000

/-- The sweep period in base cycles: age period × 1,000,000 / base cycle in µs (R173). -/
def sweepPeriod (cyc : Fin 4) (age : Nat) : Nat :=
  match cyc with
  | 0 => age * 1000000 / 125
  | 1 => age * 1000000 / 250
  | 2 => age * 1000000 / 500
  | 3 => age * 1000000 / 1000

/-- Base cycles of the settle period (R8). -/
def settleBaseCycles : Nat := 64

/-- The length of the beacon window in ticks (R14, R50). -/
def beaconWindowLength : Nat := 848

/-- The forwarding lead: ready time less arrival, in ticks (R131). -/
def forwardingLead : Nat := 256

/-- The length in bytes of every reply, notice and beacon (R190). -/
def controlFrameLength : Nat := 64

/-- Round up to the placement grain of 16 ticks (R80). -/
def ceil16 (n : Nat) : Nat := (n + 15) / 16 * 16

/-- Round down to the placement grain of 16 ticks (R82). -/
def floor16 (n : Nat) : Nat := n / 16 * 16

/-- Ticks per byte of wire time (spec 00_scope.md, Frame lengths and wire time). -/
def ticksPerByte : Speed → Nat
  | .mb1000 => 1
  | .mb100 => 10

/-- Wire time in ticks of a frame of `n` bytes: (n + 20) × t (R139). -/
def wireTime (sp : Speed) (n : Nat) : Nat := (n + 20) * ticksPerByte sp

/-- W = roundup16(f × (max(fb, 64) + 20) × t + J) (R80). -/
def windowLength (frames size : Nat) (sp : Speed) (jitter : Nat) : Nat :=
  ceil16 (frames * (max size 64 + 20) * ticksPerByte sp + jitter)

/-- The cap C = floor(L × s / 64) (R52). -/
def capOf (cycleTicks share : Nat) : Nat := cycleTicks * share / 64

/-- Increment of a saturating 16-bit counter. -/
def satSucc (x : BitVec 16) : BitVec 16 := if x = 65535#16 then x else x + 1#16

/-- Addition of `n` to a saturating 16-bit counter. -/
def satAdd (x : BitVec 16) (n : Nat) : BitVec 16 :=
  if 65535 ≤ x.toNat + n then 65535#16 else x + BitVec.ofNat 16 n

/-- Increment of the consecutive misses, saturating at 15 (R27). -/
def missSucc (n : Nat) : Nat := min (n + 1) 15

/-- A window of rate `k` and phase `p` occupies base cycle `b` (R7). -/
def occupies (k p b : Nat) : Bool := b % 2 ^ k == p

/-- The distance in ticks from tick `t` of base cycle `b` to the next tick at which the counter equals `o` in an
occupied base cycle, 0 when the instant is itself such a tick (R13). DEDUCED: the opening of the present tick counts
at distance 0 whether or not it has been taken (assumption 12). -/
def distanceTo (cycleTicks k p o b t : Nat) : Nat :=
  let ahead := (p + 2 ^ k - b % 2 ^ k) % 2 ^ k
  if ahead = 0 then
    if t ≤ o then o - t else 2 ^ k * cycleTicks + o - t
  else ahead * cycleTicks + o - t

end Sys2Proof.Machine
end

