-- ==== Sys2Proof/Machine/State.lean ====
section
/-! DEFINITION. The state of the GS-808 as plain data, block by block (spec 00_scope.md, Device Overview), its value
right after reset, and the three shapes of update the operations are written with. -/

namespace Sys2Proof.Machine

/-- No fault: the spec gives the device none. Bad frames are counted and discarded (R123) and a request the device
turns away is answered (R110), so no command stops the machine. -/
inductive Fault where
deriving DecidableEq, Repr

/-- Why a command has no outcome. -/
inductive Refusal where
  /-- Raised by `exec` for a command with no meaning yet; safe. No arm raises it. -/
  | notModelled (mnemonic : String)
deriving DecidableEq, Repr

/-! ### Links and ingress (chapters 06 and 08) -/

/-- The link state of a port with what is present in it: the good-sample count in COMING_UP (1 to 7), the current
speed in UP and GOING_DOWN (08, R157 to R159). -/
inductive LinkState where
  | down
  | comingUp (good : Nat)
  | up (speed : Speed)
  | goingDown (speed : Speed)
  | faulted
deriving DecidableEq, Repr

/-- The late policy of an egress port (R135). -/
inductive LatePolicy where
  | hold
  | drop
deriving DecidableEq, Repr

/-- The six policy fields of a port (R180, R188). -/
structure Policy where
  share : Nat
  jitter : Nat
  missLimit : Nat
  late : LatePolicy
  masterCapable : Bool
  quota : Nat
deriving DecidableEq, Repr

/-! ### Reservations (chapter 02) -/

/-- The states of a non-FREE record (R19). -/
inductive RecordState where
  | pending
  | active
  | dormant
  | suspended
  | ending
deriving DecidableEq, Repr

/-- End reasons, which are also the causes of a cancellation (R19, R108). -/
inductive EndReason where
  | released
  | countDone
  | speedChanged
  | stationMoved
  | portCleared
  | cellCleared
deriving DecidableEq, Repr

/-- The event flags of a record, or a clear set that names some of them (R19, R42). -/
structure EventFlags where
  late : Bool
  missed : Bool
  overflow : Bool
  oversize : Bool
  dormantSeen : Bool
  noticeLost : Bool
deriving DecidableEq, Repr

/-- The wake set: the leg numbers in it (R19). -/
structure WakeSet where
  leg0 : Bool
  leg1 : Bool
deriving DecidableEq, Repr

/-- One leg of a record (R20). -/
structure Leg where
  ingress : Port
  egress : Port
  frameSize : Nat
  framesPerWindow : Nat
  offset : Nat
  length : Nat
  speed : Speed
  misses : Nat
  smallestLead : Option Nat
deriving DecidableEq, Repr

/-- A non-FREE record (R19). `leg1` and `turnaround` are present with a return leg, `remaining` in a count-limited
reservation, `endReason` in ENDING, `firstHypercycle` from the installation. -/
structure Record where
  state : RecordState
  owner : MasterIndex
  ownerPort : Port
  ownerAddr : Addr
  destAddr : Addr
  rate : Nat
  phase : Nat
  leg0 : Leg
  leg1 : Option Leg
  turnaround : Option Nat
  remaining : Option Nat
  flags : EventFlags
  delivered : BitVec 32
  missedWindows : BitVec 16
  lateFrames : BitVec 16
  droppedFrames : BitVec 16
  wake : WakeSet
  endReason : Option EndReason
  waiters : List MasterIndex
  firstHypercycle : Option (BitVec 32)
deriving DecidableEq, Repr

/-- The mark of a hold-queue entry (R129, R131). -/
inductive Mark where
  | waiting
  | ready
  | late
deriving DecidableEq, Repr

/-- A hold-queue entry (R129): its length is the frame's, its ready time a value of `TimeBase.now`. -/
structure HoldEntry where
  frame : Frame
  readyAt : Nat
  mark : Mark
deriving DecidableEq, Repr

/-- A slot of the reservation table (R17): its reuse value, its record (none: FREE), and the hold queues of the
record's legs, head first (R129). -/
structure SlotCell where
  reuse : BitVec 5
  record : Option Record
  queue0 : List HoldEntry
  queue1 : List HoldEntry
deriving DecidableEq, Repr

/-! ### Calendars (chapter 03) -/

/-- A window record (R49). -/
structure Window where
  offset : Nat
  length : Nat
  rate : Nat
  phase : Nat
  owner : WindowOwner
  retiring : Bool
deriving DecidableEq, Repr

/-- An entry of the change list (R57). -/
structure StagedLeg where
  egress : Port
  offset : Nat
  length : Nat
  rate : Nat
  phase : Nat
  slot : Slot
  leg : LegNo
deriving DecidableEq, Repr

/-- The calendar store but for the port calendars, which stand with their ports (chapter 03, table). -/
structure CalendarStore where
  changeList : List StagedLeg
  generation : BitVec 16
  pendingH : Option Nat
deriving DecidableEq, Repr

/-! ### Requests and masters (chapters 04 and 05) -/

/-- The request kinds (R189). -/
inductive RequestKind where
  | claim
  | release
  | query
  | readCalendar
  | readPort
  | hold
  | resume
  | setPortPolicy
  | setTiming
  | setAge
  | clearPort
  | clearCell
deriving DecidableEq, Repr

/-- The fields of a CLAIM as decoded (R76, R189): the preferred phase and offset are 0 where the options leave them
ungiven, `mode` is the mode byte. -/
structure ClaimFields where
  dest : Addr
  mode : Nat
  rate : Nat
  returnLeg : Bool
  phase : Nat
  offset : Nat
  frames0 : Nat
  frames1 : Nat
  size0 : Nat
  size1 : Nat
  turnaround : Nat
  remaining : Nat
deriving DecidableEq, Repr

/-- A decoded queued request (R72, R189), its fields as sent. -/
inductive QueuedBody where
  | claim (fields : ClaimFields)
  | release (stream : Nat)
  | hold
  | resume
  | setPortPolicy (port share jitter missLimit late : Nat) (masterCapable : Bool) (quota : Nat)
  | setTiming (h : Nat)
  | setAge (seconds : Nat)
  | clearPort (port : Nat)
  | clearCell
deriving DecidableEq, Repr

/-- A decoded immediate request (R103, R189), its fields as sent. -/
inductive ImmediateBody where
  | query (stream : Nat) (clear : EventFlags) (part : Nat)
  | readCalendar (port first : Nat)
  | readPort (port : Nat) (clear : Bool)
deriving DecidableEq, Repr

/-- An entry of the request queue (R72). -/
structure Request where
  master : MasterIndex
  port : Port
  addr : Addr
  body : QueuedBody
deriving DecidableEq, Repr

/-- An immediate request that passed to step 4 of R101 and is to be answered (R104, R105). -/
structure ImmediateRequest where
  port : Port
  addr : Addr
  tag : BitVec 16
  body : ImmediateBody
deriving DecidableEq, Repr

/-- The waiting claim (R75): none; the head of the queue waits for the next switch; or that switch has been taken and
the claim is to be taken up again. -/
inductive WaitingClaim where
  | none
  | waiting
  | takeUp
deriving DecidableEq, Repr

/-- The admission unit (chapter 04, table). -/
structure AdmissionUnit where
  queue : List Request
  held : Bool
  waiting : WaitingClaim
deriving DecidableEq, Repr

/-- The phases of a master (R96, R99). -/
inductive MasterPhase where
  | idle
  | queued
  | executing
  | replyDue
deriving DecidableEq, Repr

/-- The kind and tag of a master's outstanding request (R96). -/
structure CurrentRequest where
  kind : RequestKind
  tag : BitVec 16
deriving DecidableEq, Repr

/-- The deferred answers (R107), with what their replies carry of the execution (R109, R187): the stream a RELEASE
of a PENDING record named; the port of a CLEAR_PORT (none for the cell) and its two counts. -/
inductive Awaited where
  | grant (slot : Slot)
  | release (slot : Slot)
  | releasedAtSwitch (stream : Nat)
  | cleared (target : Option Port) (cancelled ended : Nat)
  | timing
deriving DecidableEq, Repr

/-- An entry of the master table (R96). -/
structure Master where
  port : Port
  addr : Addr
  phase : MasterPhase
  held : Nat
  request : Option CurrentRequest
  awaited : Option Awaited
deriving DecidableEq, Repr

/-! ### Messages the device builds (chapter 11) -/

/-- The statuses of an answer (R110). -/
inductive Status where
  | ok
  | granted
  | released
  | cancelled
  | cleared
  | starting
  | invalid
  | notAdmin
  | busy
  | noMasterSlot
  | held
  | notPermitted
  | range
  | unknownDest
  | samePort
  | portDown
  | quota
  | tableFull
  | tooLong
  | noRoom
  | noStream
  | notOwner
  | notHeld
  | inUse
deriving DecidableEq, Repr

/-- The kinds of a notice (R114). -/
inductive NoticeKind where
  | dormant
  | active
  | suspended
  | ended
deriving DecidableEq, Repr

/-- The contents of a GRANTED reply (R111). -/
structure GrantReading where
  state : RecordState
  stream : Nat
  firstHypercycle : BitVec 32
  generation : BitVec 16
  rate : Nat
  phase : Nat
  leg0 : Leg
  leg1 : Option Leg
deriving DecidableEq, Repr

/-- The contents of an OK answer to READ_PORT (R186). -/
structure PortReading where
  port : Port
  receiveErrors : BitVec 16
  strays : BitVec 16
  openDrops : BitVec 16
  link : LinkState
  policy : Policy
  cap : Nat
deriving DecidableEq, Repr

/-- An entry of a READ_CALENDAR answer (R68): the stream number and record state are absent for the beacon window. -/
structure CalendarEntry where
  offset : Nat
  length : Nat
  rate : Nat
  phase : Nat
  stream : Option Nat
  leg : LegNo
  retiring : Bool
  staged : Bool
  state : Option RecordState
deriving DecidableEq, Repr

/-- The contents of an OK answer to READ_CALENDAR (R68, R191). -/
structure CalendarReading where
  port : Port
  hExp : Nat
  pendingH : Option Nat
  freePlaces : Nat
  generation : BitVec 16
  cap : Nat
  peak : Nat
  installed : Nat
  staged : Nat
  first : Nat
  entries : List CalendarEntry
deriving DecidableEq, Repr

/-- What an answer carries besides status, kind and tag (R112, R187). A QUERY answer carries the record as the
snapshot took it (R46) and the number of its first free value (assumption 19). -/
inductive AnswerBody where
  | kindAlone
  | failingField (offset : Nat)
  | quota (held quota : Nat)
  | lengths (w0 cap0 : Nat) (second : Option (Nat × Nat))
  | cancelled (stream : Nat) (cause : EndReason)
  | stream (n : Nat)
  | released (stream : Nat) (generation : BitVec 16)
  | busy (phase : MasterPhase) (request : CurrentRequest)
  | heldFlag (held : Bool)
  | policy (port cap peak : Nat)
  | timingInUse (records entries : Nat)
  | timing (h : Nat) (generation : BitVec 16)
  | age (seconds sweep : Nat)
  | cleared (target : Option Port) (cancelled ended : Nat) (generation : BitVec 16)
  | portRead (reading : PortReading)
  | granted (reading : GrantReading)
  | queryRecord (cleared : Bool) (stream : Nat) (record : Record) (fill : Nat)
  | queryLeg (cleared : Bool) (stream : Nat) (record : Record) (n : LegNo) (leg : Leg) (fill : Nat)
  | calendar (reading : CalendarReading)
deriving DecidableEq, Repr

/-- The content of the beacons of one hypercycle (R15). -/
structure BeaconContent where
  unit : Fin 16
  hypercycle : BitVec 32
  generation : BitVec 16
  cyc : Fin 4
  hExp : Nat
  held : Bool
  queueLength : Nat
deriving DecidableEq, Repr

/-- A message the device builds (R110, R114, R15): an answer with the kind as received, the tag, status and contents;
a notice with the hypercycle number, the flags and, when ENDED, reason and final counts; a beacon. -/
inductive Message where
  | answer (kind : Byte) (tag : BitVec 16) (status : Status) (body : AnswerBody)
  | notice (kind : NoticeKind) (stream : Nat) (hypercycle : BitVec 32) (flags : EventFlags)
      (final : Option (EndReason × BitVec 32 × BitVec 16))
  | beacon (content : BeaconContent)
deriving DecidableEq, Repr

/-- The class of a frame of the control queue (R116): a reply, with its master; a notice whose loss sets NOTICE_LOST on
the record of its stream number (R43); or another non-reply frame, an answer or an ENDED notice, whose loss leaves no
trace (R115). -/
inductive ControlClass where
  | reply (master : MasterIndex)
  | notice (stream : Nat)
  | other
deriving DecidableEq, Repr

/-- A frame of a control queue (R116), made into bytes when its transmission starts (assumption 30). -/
structure ControlFrame where
  dest : Addr
  cls : ControlClass
  message : Message
deriving DecidableEq, Repr

/-! ### Egress (chapter 07) -/

/-- Who holds the transmitter (R139). A control frame in transmission still holds its place (R116). -/
inductive Claimant where
  | beacon
  | window (slot : Slot) (leg : LegNo)
  | control (frame : ControlFrame)
  | openFrame
deriving DecidableEq, Repr

/-- The transmitter (R139): FREE, or busy with a frame whose wire time ends at `endAt`. -/
inductive Transmitter where
  | free
  | busy (claimant : Claimant) (frame : Frame) (endAt : Nat)
deriving DecidableEq, Repr

/-- The class of a reservation instance (R66): live; lent at its opening; or opened live and lent since, because its
record was suspended or ended. -/
inductive WindowClass where
  | live
  | lent
  | released
deriving DecidableEq, Repr

/-- A reservation instance (R139), with the tick of its end. -/
structure WindowInstance where
  slot : Slot
  leg : LegNo
  b : Nat
  cls : WindowClass
  sent : Nat
  endAt : Nat
deriving DecidableEq, Repr

/-- The current instance of a port (R139). -/
inductive CurrentInstance where
  | none
  | beacon (endAt : Nat)
  | window (i : WindowInstance)
deriving DecidableEq, Repr

/-- What the device holds for one port: link monitor, ingress counters, policy, calendar and egress scheduler. The
byte total of the open queue is the sum of its frames' lengths. -/
structure PortState where
  link : LinkState
  receiveErrors : BitVec 16
  strays : BitVec 16
  openDrops : BitVec 16
  policy : Policy
  calendar : List Window
  tx : Transmitter
  current : CurrentInstance
  controlQueue : List ControlFrame
  openQueue : List Frame
  longestOpen : Nat
deriving DecidableEq, Repr

/-! ### Stations and time (chapters 09 and 01) -/

/-- An entry of the station table (R167). -/
structure Station where
  addr : Addr
  port : Port
  seen : Bool
  pins : Nat
deriving DecidableEq, Repr

/-- The ageing of the station table (R173). -/
structure Ageing where
  agePeriod : Nat
  sweepCount : Nat
deriving DecidableEq, Repr

/-- A hypercycle boundary that has been reached and whose switch has not been taken: none, the end of the settle
period (R10), or a later one (R4). -/
inductive BoundaryDue where
  | none
  | endOfSettle
  | hypercycle
deriving DecidableEq, Repr

/-- The time base (chapter 01). `now` counts ticks since the release of reset (assumption 9); `startDue` says that
the base-cycle start of the present tick has been raised and its sample not yet taken (assumptions 7 and 10). -/
structure TimeBase where
  now : Nat
  tick : Nat
  b : Nat
  hypercycle : BitVec 32
  hExp : Nat
  settle : Nat
  startDue : Bool
  boundaryDue : BoundaryDue
deriving DecidableEq, Repr

/-- The state of the device. -/
structure State where
  /-- The commands that wait, first in, first out. -/
  pending : List Instr
  resetAsserted : Bool
  straps : Straps
  lines : Vector PhyLines 8
  time : TimeBase
  beacon : Option BeaconContent
  slots : Vector SlotCell 128
  store : CalendarStore
  admission : AdmissionUnit
  masters : Vector (Option Master) 16
  inbox : List ImmediateRequest
  switchAnswers : List MasterIndex
  ports : Vector PortState 8
  stations : Vector (Option Station) 256
  ageing : Ageing
  freeIndex : Nat
deriving DecidableEq, Repr

/-! ### Reset -/

/-- The beacon window at rate `h` (R50). -/
def beaconWindow (h : Nat) : Window :=
  { offset := 0, length := beaconWindowLength, rate := h, phase := 0, owner := .beacon, retiring := false }

/-- A port after hardware reset (R188, R166, R138, R139, R71). -/
def PortState.reset (cyc : Fin 4) : PortState where
  link := .down
  receiveErrors := 0
  strays := 0
  openDrops := 0
  policy := { share := 32, jitter := 32, missLimit := 4, late := .hold, masterCapable := true, quota := 8 }
  calendar := [beaconWindow 3]
  tx := .free
  current := .none
  controlQueue := []
  openQueue := []
  longestOpen := 2 ^ 3 * baseCycleTicks cyc - beaconWindowLength

/-- Every field at its reset value, the straps sampled at the release held (R3, R16, R47, R71, R95, R121, R138, R155,
R166, R173, R188). The base-cycle start of the release has been raised (R1) and is to be taken. DESIGN CHOICE: no
beacon content is held before the first capture, since R15 gives none (assumption 36). -/
def State.resetWith (straps : Straps) (lines : Vector PhyLines 8) (pending : List Instr) : State where
  pending := pending
  resetAsserted := false
  straps := straps
  lines := lines
  time :=
    { now := 0, tick := 0, b := 0, hypercycle := 0, hExp := 3, settle := settleBaseCycles,
      startDue := true, boundaryDue := .none }
  beacon := none
  slots := Vector.replicate 128 { reuse := 0, record := none, queue0 := [], queue1 := [] }
  store := { changeList := [], generation := 0, pendingH := none }
  admission := { queue := [], held := false, waiting := .none }
  masters := Vector.replicate 16 none
  inbox := []
  switchAnswers := []
  ports := Vector.replicate 8 (PortState.reset straps.cyc)
  stations := Vector.replicate 256 none
  ageing := { agePeriod := 300, sweepCount := 0 }
  freeIndex := 0

/-- The machine right after reset. DESIGN CHOICE: the straps read 0 and the PHY lines are negated, since the spec gives
their levels to the board (assumptions 1 and 8). -/
def State.reset : State :=
  State.resetWith { adm := 0, cyc := 0, unit := 0 }
    (Vector.replicate 8 { link := false, speed := false, fault := false }) []

/-! ### Updates -/

/-- Change one port. -/
def State.modPort (s : State) (p : Port) (f : PortState → PortState) : State :=
  { s with ports := s.ports.set p (f s.ports[p]) }

/-- Change one slot of the reservation table. -/
def State.modSlot (s : State) (i : Slot) (f : SlotCell → SlotCell) : State :=
  { s with slots := s.slots.set i (f s.slots[i]) }

/-- Change the record of a slot; a FREE slot has none to change. -/
def State.modRecord (s : State) (i : Slot) (f : Record → Record) : State :=
  s.modSlot i fun c => { c with record := c.record.map f }

/-- Change one entry of the master table; a free index has none to change. -/
def State.modMaster (s : State) (m : MasterIndex) (f : Master → Master) : State :=
  { s with masters := s.masters.set m (s.masters[m].map f) }

/-- Put an entry, or none, at an index of the master table. -/
def State.putMaster (s : State) (m : MasterIndex) (e : Option Master) : State :=
  { s with masters := s.masters.set m e }

/-- Put an entry, or none, at a place of the station table. -/
def State.putStation (s : State) (i : Place) (e : Option Station) : State :=
  { s with stations := s.stations.set i e }

end Sys2Proof.Machine
end

