-- ==== Sys2Proof/Machine/Calendar.lean ====
section
/-! DEFINITION. Port calendars: order, occupancy, collision, load, cap, the planned view, peak load and the longest open
stretch (chapter 03; R149). -/

namespace Sys2Proof.Machine

/-- L at the strap CYC held (R2). -/
def State.cycleTicks (s : State) : Nat := baseCycleTicks s.straps.cyc

/-- The window occupies base cycle `b` (R7). -/
def Window.inBaseCycle (w : Window) (b : Nat) : Bool := occupies w.rate w.phase b

/-- Every window but the beacon window is a reservation window (R50). -/
def Window.reserves (w : Window) : Bool := w.owner != .beacon

/-- The order of a calendar: by offset, then by phase (R48). -/
def windowBefore (a b : Window) : Bool := a.offset < b.offset || (a.offset == b.offset && a.phase < b.phase)

/-- Insert a window at its place in the order (R48, R61). -/
def insertWindow (w : Window) : List Window → List Window
  | [] => [w]
  | x :: xs => if windowBefore w x then w :: x :: xs else x :: insertWindow w xs

/-- The phases of two patterns agree: they meet in some base cycle (R51). -/
def phasesAgree (ka pa kb pb : Nat) : Bool := pa % 2 ^ min ka kb == pb % 2 ^ min ka kb

/-- Two windows of one port collide (R51). -/
def collide (a b : Window) : Bool :=
  a.offset < b.offset + b.length && b.offset < a.offset + a.length
    && phasesAgree a.rate a.phase b.rate b.phase

/-- The load of base cycle `b` over a set of windows: the lengths of its reservation windows that occupy `b` (R52). -/
def loadOf (ws : List Window) (b : Nat) : Nat :=
  ((ws.filter fun w => w.reserves && w.inBaseCycle b).map Window.length).sum

/-- A staged leg taken as a window (R54, R61). -/
def StagedLeg.window (e : StagedLeg) : Window :=
  { offset := e.offset, length := e.length, rate := e.rate, phase := e.phase, owner := .leg e.slot e.leg,
    retiring := false }

/-- The staged legs of the change list for one port, in change-list order. -/
def State.stagedFor (s : State) (p : Port) : List StagedLeg := s.store.changeList.filter fun e => e.egress == p

/-- The planned view of a port: installed windows not retiring, and the legs staged for it (R54). -/
def State.planned (s : State) (p : Port) : List Window :=
  ((s.ports[p]).calendar.filter fun w => !w.retiring) ++ (s.stagedFor p).map StagedLeg.window

/-- The cap C of a port (R52). -/
def State.cap (s : State) (p : Port) : Nat := capOf s.cycleTicks (s.ports[p]).policy.share

/-- The peak load of a port: the greatest load of any base cycle, over the planned view and the installed calendar
(R53). -/
def State.peakLoad (s : State) (p : Port) : Nat :=
  (List.range (2 ^ s.time.hExp)).foldl
    (fun m b => max m (max (loadOf (s.planned p) b) (loadOf (s.ports[p]).calendar b))) 0

/-- The free places of the change list (R57). -/
def State.freePlaces (s : State) : Nat := 16 - s.store.changeList.length

/-- Distance from tick `t` of base cycle `b` to the window's next opening (R13). -/
def Window.distance (w : Window) (cycleTicks b t : Nat) : Nat :=
  distanceTo cycleTicks w.rate w.phase w.offset b t

/-- The longest open stretch: over every instance of the hypercycle, from its end to the next opening of any window of
the calendar, the greatest (R149). DEDUCED: the formula (assumption 26). -/
def longestStretch (cycleTicks h : Nat) (cal : List Window) : Nat :=
  (List.range (2 ^ h)).foldl
    (fun m b => (cal.filter fun w => w.inBaseCycle b).foldl
      (fun m w => max m ((cal.map fun v => v.distance cycleTicks b (w.offset + w.length)).min?.getD 0)) m) 0

end Sys2Proof.Machine
end

