-- ==== Sys2Proof/Machine/Placement.lean ====
section
/-! DEFINITION. The placement search (R82 to R88): the load test, candidates, the order of phases, and the joint search
for two legs. -/

namespace Sys2Proof.Machine

/-- What the search knows of one leg: its egress port, window length and that port's cap (R80, R81). -/
structure LegPlan where
  egress : Port
  speed : Speed
  length : Nat
  cap : Nat
deriving DecidableEq, Repr

/-- The place found: the common phase and the offset of each leg (R84, R88). -/
structure Placement where
  phase : Nat
  offset0 : Nat
  offset1 : Option Nat
deriving DecidableEq, Repr

/-- The load test of phase `ph` on the leg's port (R83). -/
def State.loadTest (s : State) (l : LegPlan) (k ph : Nat) : Bool :=
  (List.range (2 ^ s.time.hExp)).all fun b =>
    !occupies k ph b || loadOf (s.planned l.egress) b + l.length ≤ l.cap

/-- The occupied intervals of phase `ph`: the windows of the planned view, the beacon window included, whose phase
agrees (R83, R51). -/
def State.occupied (s : State) (p : Port) (k ph : Nat) : List Window :=
  (s.planned p).filter fun w => phasesAgree w.rate w.phase k ph

/-- The planned view of the port has a place for another reservation window (R56, R83). -/
def State.hasRoom (s : State) (p : Port) : Bool := ((s.planned p).filter Window.reserves).length < 32

/-- The interval [o, o + W) overlaps the window's; touching is no overlap (R51, R83). -/
def overlaps (w : Window) (o len : Nat) : Bool := o < w.offset + w.length && w.offset < o + len

/-- The lowest candidate offset from `o` on, passing at each overlap to the end of the window met; each window is passed
at most once, which bounds the steps. -/
def lowestFree (occ : List Window) (len cycleTicks : Nat) : Nat → Nat → Option Nat
  | 0, _ => none
  | fuel + 1, o =>
    if cycleTicks < o + len then none
    else
      match occ.find? fun w => overlaps w o len with
      | none => some o
      | some w => lowestFree occ len cycleTicks fuel (ceil16 (w.offset + w.length))

/-- The lowest candidate of phase `ph` at or above `lo` on the leg's port, with the room and load tests (R83). -/
def State.lowestCandidate (s : State) (l : LegPlan) (k ph lo : Nat) : Option Nat :=
  if s.hasRoom l.egress && s.loadTest l k ph then
    let occ := s.occupied l.egress k ph
    lowestFree occ l.length s.cycleTicks (occ.length + 1) (ceil16 lo)
  else none

/-- Offset `o` is a candidate of phase `ph` on the leg's port (R83). -/
def State.isCandidate (s : State) (l : LegPlan) (k ph o : Nat) : Bool :=
  s.hasRoom l.egress && s.loadTest l k ph && o % 16 == 0 && o + l.length ≤ s.cycleTicks
    && (s.occupied l.egress k ph).all fun w => !overlaps w o l.length

/-- The place with leg 0 at `o`: with a return leg its lowest candidate at or above o + W + T, if there is one, in the
same phase (R87). -/
def State.withReturn (s : State) (l0 : LegPlan) (ret : Option LegPlan) (turnaround k ph o : Nat) : Option Placement :=
  match ret with
  | none => some { phase := ph, offset0 := o, offset1 := none }
  | some l1 =>
    (s.lowestCandidate l1 k ph (o + l0.length + turnaround)).map fun o1 =>
      { phase := ph, offset0 := o, offset1 := some o1 }

/-- A pass of the search: a phase, the least offset considered, and the offset below which it stays (R84). -/
structure SearchPass where
  phase : Nat
  lo : Nat
  below : Option Nat
deriving DecidableEq, Repr

/-- The passes in order: phase p0 from o0, the later phases, the earlier ones, and phase p0 again below o0 (R84). -/
def searchPasses (k p0 o0 : Nat) : List SearchPass :=
  { phase := p0, lo := o0, below := none }
    :: ((List.range' (p0 + 1) (2 ^ k - p0 - 1) ++ List.range p0).map fun ph => { phase := ph, lo := 0, below := none })
    ++ [{ phase := p0, lo := 0, below := some o0 }]

/-- One pass: its lowest forward candidate, with its return. A later forward candidate of the pass has no return when the
earliest has none (R88; assumption 29). -/
def State.searchPass (s : State) (l0 : LegPlan) (ret : Option LegPlan) (turnaround k : Nat) (ps : SearchPass) :
    Option Placement :=
  match s.lowestCandidate l0 k ps.phase ps.lo with
  | none => none
  | some o => if ps.below.all fun hi => o < hi then s.withReturn l0 ret turnaround k ps.phase o else none

/-- The preferred offset of SEARCH mode: rounded down to 16, and lowered when leg 0 would run past L (R82). -/
def searchOffset (o0 len cycleTicks : Nat) : Nat :=
  if cycleTicks < floor16 o0 + len then floor16 (cycleTicks - len) else floor16 o0

/-- The search of SEARCH mode (R82, R84, R88). -/
def State.search (s : State) (l0 : LegPlan) (ret : Option LegPlan) (turnaround k p0 o0 : Nat) : Option Placement :=
  (searchPasses k (p0 % 2 ^ k) (searchOffset o0 l0.length s.cycleTicks)).findSome?
    (s.searchPass l0 ret turnaround k)

/-- The one candidate of EXACT mode, with its return (R85, R88). -/
def State.exactPlace (s : State) (l0 : LegPlan) (ret : Option LegPlan) (turnaround k p0 o0 : Nat) : Option Placement :=
  if s.isCandidate l0 k p0 o0 then s.withReturn l0 ret turnaround k p0 o0 else none

end Sys2Proof.Machine
end

