-- ==== Sys2Proof/Config.lean ====
section
/-! DEFINITION. The free values: what the spec leaves open after an effect it gives. Nothing constrains them. -/

namespace Sys2Proof

/-- The n-th free value, a 32-bit field whose content the spec does not state: a field of a QUERY answer that the
answer's own presence bit marks absent (R46, R191; assumption 19). UNVERIFIED by nature; safe, since no proof can see
it. -/
opaque Config.freeValue : Nat → BitVec 32

end Sys2Proof
end

