-- ==== Sys2Proof/Machine/Flags.lean ====
section
/-! DEFINITION. The event flags of a record and their codes (R42 and the common codes of R190): union, clearing,
and the flag byte. -/

namespace Sys2Proof.Machine

/-- The empty set of flags. -/
def EventFlags.empty : EventFlags := ⟨false, false, false, false, false, false⟩

/-- The set of flags named by a byte: bit 0 LATE, 1 MISSED, 2 OVERFLOW, 3 OVERSIZE, 4 DORMANT_SEEN, 5 NOTICE_LOST;
the unnamed bits are not read (R189). -/
def flagsOfByte (n : Nat) : EventFlags where
  late := n.testBit 0
  missed := n.testBit 1
  overflow := n.testBit 2
  oversize := n.testBit 3
  dormantSeen := n.testBit 4
  noticeLost := n.testBit 5

/-- The byte of a set of flags. -/
def byteOfFlags (f : EventFlags) : Nat :=
  f.late.toNat + 2 * f.missed.toNat + 4 * f.overflow.toNat + 8 * f.oversize.toNat + 16 * f.dormantSeen.toNat
    + 32 * f.noticeLost.toNat

/-- Clear each flag named in the clear set; the others stay (R42). -/
def clearFlags (f clear : EventFlags) : EventFlags where
  late := f.late && !clear.late
  missed := f.missed && !clear.missed
  overflow := f.overflow && !clear.overflow
  oversize := f.oversize && !clear.oversize
  dormantSeen := f.dormantSeen && !clear.dormantSeen
  noticeLost := f.noticeLost && !clear.noticeLost

/-- A clear set that names at least one flag. -/
def namesFlag (clear : EventFlags) : Bool :=
  clear.late || clear.missed || clear.overflow || clear.oversize || clear.dormantSeen || clear.noticeLost

/-- The wake set has leg `n` in it. -/
def WakeSet.has (w : WakeSet) : LegNo → Bool
  | .leg0 => w.leg0
  | .leg1 => w.leg1

/-- Add leg `n` to the wake set; it is there once (R29). -/
def WakeSet.add (w : WakeSet) : LegNo → WakeSet
  | .leg0 => { w with leg0 := true }
  | .leg1 => { w with leg1 := true }

/-- The empty wake set. -/
def WakeSet.empty : WakeSet := ⟨false, false⟩

end Sys2Proof.Machine
end

