-- ==== Sys2Proof/Machine/Frames.lean ====
section
/-! DEFINITION. The bytes of frames: fields, addresses and the frame check sequence (spec 00_scope.md Conventions;
11_frame_and_message_formats.md). -/

namespace Sys2Proof.Machine

/-! ### Fields -/

/-- The number in the `n` bytes from byte `at_`, most significant byte first. -/
def fieldAt (f : Frame) (at_ n : Nat) : Nat :=
  ((f.drop at_).take n).foldl (fun acc x => acc * 256 + x.toNat) 0

/-- Bit `i` of the byte at `at_`. -/
def bitAt (f : Frame) (at_ i : Nat) : Bool := (fieldAt f at_ 1).testBit i

/-- The destination address: the first six bytes (R122). -/
def destinationOf (f : Frame) : Addr := BitVec.ofNat 48 (fieldAt f 0 6)

/-- The source address: the next six bytes (R122). -/
def sourceOf (f : Frame) : Addr := BitVec.ofNat 48 (fieldAt f 6 6)

/-- The type: the two bytes after the addresses (R122). -/
def etherTypeOf (f : Frame) : Nat := fieldAt f 12 2

/-- The type of motion frames. -/
def motionType : Nat := 0x9A71

/-- The type of control frames. -/
def controlType : Nat := 0x9A72

/-- The stream field of a motion frame, bytes 14 and 15 (R126). -/
def streamFieldOf (f : Frame) : Nat := fieldAt f 14 2

/-- The broadcast address. -/
def broadcast : Addr := BitVec.allOnes 48

/-- A group address has bit 0 of its first transmitted byte set. -/
def isGroup (a : Addr) : Bool := a.getLsbD 40

/-- The device's station address 0E:5A:00:00:08:0U (R3). -/
def deviceAddress (unit : Fin 16) : Addr := 0x0E5A00000800#48 + BitVec.ofNat 48 unit

/-- The bytes of `v`, most significant first, in `n` bytes. -/
def bytesOf (n v : Nat) : List Byte :=
  (List.range n).map fun i => BitVec.ofNat 8 (v / 256 ^ (n - 1 - i))

/-! ### Frame check sequence -/

/-- One bit enters the register of the check with generator polynomial 0x04C11DB7. -/
def fcsBit (reg : BitVec 32) (x : Bool) : BitVec 32 :=
  if (reg.msb ^^ x) then (reg <<< 1) ^^^ 0x04C11DB7#32 else reg <<< 1

/-- The bits of a byte enter least significant bit first. -/
def fcsByte (reg : BitVec 32) (x : Byte) : BitVec 32 :=
  (List.range 8).foldl (fun r i => fcsBit r (x.getLsbD i)) reg

/-- The four FCS bytes of the bytes before them: register preset to all ones, the complement of the remainder, highest
coefficient first on the wire. DEDUCED: each byte goes out least significant bit first here as for every byte of the
frame, so the coefficient of x^31 is bit 0 of the first FCS byte (assumption 11). -/
def fcsBytes (l : List Byte) : List Byte :=
  let check := ~~~ (l.foldl fcsByte (BitVec.allOnes 32))
  (List.range 4).map fun j =>
    BitVec.ofBoolListLE ((List.range 8).map fun i => check.getLsbD (31 - 8 * j - i))

/-- The last four bytes are the check of the bytes before them. -/
def goodFcs (f : Frame) : Bool := f.drop (f.length - 4) == fcsBytes (f.take (f.length - 4))

/-- Row 1 of R122: bad FCS, or a length above 1522 or below 64 bytes. -/
def isErrorFrame (f : Frame) : Bool := !goodFcs f || 1522 < f.length || f.length < 64

end Sys2Proof.Machine
end

