-- ==== Sys2Proof/Machine/Operands.lean ====
section
/-! DEFINITION. What the conversation unit decodes from a control frame: the header and the request bodies of R189. -/

namespace Sys2Proof.Machine

/-! ### Control header -/

/-- The message kind, byte 14. -/
def kindOf (f : Frame) : Nat := fieldAt f 14 1

/-- The tag, bytes 16 and 17. -/
def tagOf (f : Frame) : BitVec 16 := BitVec.ofNat 16 (fieldAt f 16 2)

/-- The body length given in the header, bytes 18 and 19. -/
def bodyLengthOf (f : Frame) : Nat := fieldAt f 18 2

/-- Kinds of the frames the device sends: reply, notice and beacon (R100). -/
def isDeviceKind (k : Nat) : Bool := k == 0x80 || k == 0x81 || k == 0x82

/-! ### Request kinds -/

/-- The code of a request kind (R189). -/
def RequestKind.code : RequestKind → Nat
  | .claim => 0x01
  | .release => 0x02
  | .query => 0x03
  | .readCalendar => 0x04
  | .readPort => 0x05
  | .hold => 0x06
  | .resume => 0x07
  | .setPortPolicy => 0x08
  | .setTiming => 0x09
  | .setAge => 0x0A
  | .clearPort => 0x0B
  | .clearCell => 0x0C

/-- The request kind of a code; any other code names no request (R103). -/
def requestKindOf (code : Nat) : Option RequestKind :=
  match code with
  | 0x01 => some .claim
  | 0x02 => some .release
  | 0x03 => some .query
  | 0x04 => some .readCalendar
  | 0x05 => some .readPort
  | 0x06 => some .hold
  | 0x07 => some .resume
  | 0x08 => some .setPortPolicy
  | 0x09 => some .setTiming
  | 0x0A => some .setAge
  | 0x0B => some .clearPort
  | 0x0C => some .clearCell
  | _ => none

/-- The body length of a request kind (R189). -/
def RequestKind.bodyLength : RequestKind → Nat
  | .claim => 24
  | .release => 2
  | .query => 4
  | .readCalendar => 2
  | .readPort => 2
  | .hold => 0
  | .resume => 0
  | .setPortPolicy => 8
  | .setTiming => 1
  | .setAge => 2
  | .clearPort => 1
  | .clearCell => 0

/-- The kinds of step 3 of R101, which only the administrator port may send. -/
def RequestKind.administrator : RequestKind → Bool
  | .claim | .release | .query => false
  | .readCalendar | .readPort | .hold | .resume | .setPortPolicy | .setTiming | .setAge | .clearPort
  | .clearCell => true

/-! ### Request bodies, at byte 20 -/

/-- The fields of a CLAIM; a preferred phase or offset the options leave ungiven is read as 0 (R189, R76). -/
def claimFieldsOf (f : Frame) : ClaimFields where
  dest := BitVec.ofNat 48 (fieldAt f 20 6)
  mode := fieldAt f 26 1
  rate := fieldAt f 27 1
  returnLeg := bitAt f 28 0
  phase := if bitAt f 28 1 then fieldAt f 29 1 else 0
  offset := if bitAt f 28 2 then fieldAt f 40 4 else 0
  frames0 := fieldAt f 30 1
  frames1 := fieldAt f 31 1
  size0 := fieldAt f 32 2
  size1 := fieldAt f 34 2
  turnaround := fieldAt f 36 2
  remaining := fieldAt f 38 2

/-- A decoded request: answered at once, or queued (R101 steps 4 and 7). -/
inductive DecodedBody where
  | immediate (body : ImmediateBody)
  | queued (body : QueuedBody)
deriving DecidableEq, Repr

/-- The body of a request of the given kind (R189). -/
def decodeBody (k : RequestKind) (f : Frame) : DecodedBody :=
  match k with
  | .claim => .queued (.claim (claimFieldsOf f))
  | .release => .queued (.release (fieldAt f 20 2))
  | .query => .immediate (.query (fieldAt f 20 2) (flagsOfByte (fieldAt f 22 1)) (fieldAt f 23 1))
  | .readCalendar => .immediate (.readCalendar (fieldAt f 20 1) (fieldAt f 21 1))
  | .readPort => .immediate (.readPort (fieldAt f 20 1) (bitAt f 21 0))
  | .hold => .queued .hold
  | .resume => .queued .resume
  | .setPortPolicy =>
    .queued (.setPortPolicy (fieldAt f 20 1) (fieldAt f 21 1) (fieldAt f 22 2) (fieldAt f 24 1) (fieldAt f 25 1)
      (bitAt f 26 0) (fieldAt f 27 1))
  | .setTiming => .queued (.setTiming (fieldAt f 20 1))
  | .setAge => .queued (.setAge (fieldAt f 20 2))
  | .clearPort => .queued (.clearPort (fieldAt f 20 1))
  | .clearCell => .queued .clearCell

end Sys2Proof.Machine
end

