-- ==== Sys2Proof/Machine/Encode.lean ====
section
/-! DEFINITION. The bytes of every reply, notice and beacon (R190, R191 and the body tables of
11_frame_and_message_formats.md). Fields a message marks absent by a presence bit and gives no content are free values
(assumption 19); bits a table leaves unnamed are 0, and so is the window length of an absent second leg (DEDUCED,
assumption 20). -/

namespace Sys2Proof.Machine

/-! ### Common codes -/

/-- Status codes. -/
def Status.code : Status → Nat
  | .ok => 0x00
  | .granted => 0x01
  | .released => 0x02
  | .cancelled => 0x03
  | .cleared => 0x04
  | .starting => 0x10
  | .invalid => 0x11
  | .notAdmin => 0x12
  | .busy => 0x13
  | .noMasterSlot => 0x14
  | .held => 0x20
  | .notPermitted => 0x21
  | .range => 0x22
  | .unknownDest => 0x23
  | .samePort => 0x24
  | .portDown => 0x25
  | .quota => 0x26
  | .tableFull => 0x27
  | .tooLong => 0x28
  | .noRoom => 0x29
  | .noStream => 0x2A
  | .notOwner => 0x2B
  | .notHeld => 0x2C
  | .inUse => 0x2D

/-- Record state codes; 0 stands for the beacon window's absence of one. -/
def stateCode : Option RecordState → Nat
  | none => 0
  | some .pending => 1
  | some .active => 2
  | some .dormant => 3
  | some .suspended => 4
  | some .ending => 5

/-- End reason and cancellation cause codes; 0 none. -/
def reasonCode : Option EndReason → Nat
  | none => 0
  | some .released => 1
  | some .countDone => 2
  | some .speedChanged => 3
  | some .stationMoved => 4
  | some .portCleared => 5
  | some .cellCleared => 6

/-- Master phase codes. -/
def MasterPhase.code : MasterPhase → Nat
  | .idle => 0
  | .queued => 1
  | .executing => 2
  | .replyDue => 3

/-- Link state codes. -/
def LinkState.code : LinkState → Nat
  | .down => 0
  | .comingUp _ => 1
  | .up _ => 2
  | .goingDown _ => 3
  | .faulted => 4

/-- The good-sample count, 0 outside COMING_UP. -/
def LinkState.goodSamples : LinkState → Nat
  | .comingUp n => n
  | _ => 0

/-- The current speed, present in UP and GOING_DOWN (R159). -/
def LinkState.speed : LinkState → Option Speed
  | .up v => some v
  | .goingDown v => some v
  | _ => none

/-- Speed codes. -/
def speedCode : Option Speed → Nat
  | none => 0
  | some .mb100 => 1
  | some .mb1000 => 2

/-- Notice kind codes. -/
def NoticeKind.code : NoticeKind → Nat
  | .dormant => 1
  | .active => 2
  | .suspended => 3
  | .ended => 4

/-- Late policy codes. -/
def LatePolicy.code : LatePolicy → Nat
  | .hold => 0
  | .drop => 1

/-- Leg numbers as bits. -/
def legBit : LegNo → Nat
  | .leg0 => 0
  | .leg1 => 1

/-! ### Reply bodies, from offset 1 -/

/-- One leg of a GRANTED reply: egress port, phase, offset, length, and the ready deadline o − 256 as a signed 3-byte
number (R111). -/
def grantedLeg (phase : Nat) (l : Leg) : List Byte :=
  bytesOf 1 l.egress ++ bytesOf 1 phase ++ bytesOf 3 l.offset ++ bytesOf 3 l.length
    ++ bytesOf 3 (l.offset + 2 ^ 24 - forwardingLead)

/-- Offsets 1 to 5 of a QUERY answer, the same in every part (R191). -/
def queryHead (cleared : Bool) (stream : Nat) (r : Record) : List Byte :=
  bytesOf 1 cleared.toNat ++ bytesOf 2 stream
    ++ bytesOf 1 (16 * stateCode (some r.state) + reasonCode r.endReason) ++ bytesOf 1 (byteOfFlags r.flags)

/-- The bytes of a field that may be absent: its value, or a free value of the same width. -/
def presentOr (n : Nat) (v : Option Nat) (fill : Nat) : List Byte :=
  bytesOf n (v.getD (Config.freeValue fill).toNat)

/-- An entry of a READ_CALENDAR answer (R190). -/
def calendarEntryBytes (e : CalendarEntry) : List Byte :=
  bytesOf 3 e.offset ++ bytesOf 3 e.length ++ bytesOf 1 (16 * e.rate + e.phase)
    ++ bytesOf 2 (e.stream.getD 0xFFFF)
    ++ bytesOf 1 (legBit e.leg + 2 * e.retiring.toNat + 4 * e.staged.toNat + 16 * stateCode e.state)

/-- The fields of a reply body from offset 1. -/
def answerFields : AnswerBody → List Byte
  | .kindAlone => []
  | .failingField offset => bytesOf 1 offset
  | .quota held quota => bytesOf 1 held ++ bytesOf 1 quota
  | .lengths w0 cap0 second =>
    bytesOf 1 (if second.isSome then 2 else 1) ++ bytesOf 3 w0 ++ bytesOf 3 cap0
      ++ bytesOf 3 ((second.map Prod.fst).getD 0) ++ bytesOf 3 ((second.map Prod.snd).getD 0)
  | .cancelled stream cause => bytesOf 2 stream ++ bytesOf 1 (reasonCode (some cause))
  | .stream n => bytesOf 2 n
  | .released stream generation => bytesOf 2 stream ++ bytesOf 2 generation.toNat
  | .busy phase request => bytesOf 1 phase.code ++ bytesOf 1 request.kind.code ++ bytesOf 2 request.tag.toNat
  | .heldFlag held => bytesOf 1 held.toNat
  | .policy port cap peak => bytesOf 1 port ++ bytesOf 3 cap ++ bytesOf 3 peak
  | .timingInUse records entries => bytesOf 1 records ++ bytesOf 1 entries
  | .timing h generation => bytesOf 1 h ++ bytesOf 2 generation.toNat
  | .age seconds sweep => bytesOf 2 seconds ++ bytesOf 3 sweep
  | .cleared target cancelled ended generation =>
    bytesOf 1 ((target.map Fin.val).getD 0xFF) ++ bytesOf 1 cancelled ++ bytesOf 1 ended
      ++ bytesOf 2 generation.toNat
  | .portRead r =>
    bytesOf 1 r.port ++ bytesOf 2 r.receiveErrors.toNat ++ bytesOf 2 r.strays.toNat ++ bytesOf 2 r.openDrops.toNat
      ++ bytesOf 1 r.link.code ++ bytesOf 1 r.link.goodSamples ++ bytesOf 1 (speedCode r.link.speed)
      ++ bytesOf 1 r.policy.share ++ bytesOf 2 r.policy.jitter ++ bytesOf 1 r.policy.missLimit
      ++ bytesOf 1 r.policy.late.code ++ bytesOf 1 r.policy.masterCapable.toNat ++ bytesOf 1 r.policy.quota
      ++ bytesOf 3 r.cap
  | .granted g =>
    bytesOf 1 (stateCode (some g.state)) ++ bytesOf 2 g.stream ++ bytesOf 4 g.firstHypercycle.toNat
      ++ bytesOf 2 g.generation.toNat ++ bytesOf 1 g.rate ++ bytesOf 1 (if g.leg1.isSome then 2 else 1)
      ++ grantedLeg g.phase g.leg0 ++ (g.leg1.map (grantedLeg g.phase)).getD []
  | .queryRecord cleared stream r fill =>
    queryHead cleared stream r ++ bytesOf 1 (16 * r.rate + r.phase)
      ++ bytesOf 1 (r.ownerPort.val + 8 * r.leg1.isSome.toNat + 16 * r.remaining.isSome.toNat
        + 32 * r.firstHypercycle.isSome.toNat)
      ++ bytesOf 6 r.ownerAddr.toNat ++ bytesOf 6 r.destAddr.toNat
      ++ presentOr 2 r.turnaround fill ++ presentOr 2 r.remaining (fill + 1)
      ++ presentOr 4 (r.firstHypercycle.map BitVec.toNat) (fill + 2)
      ++ bytesOf 4 r.delivered.toNat ++ bytesOf 2 r.missedWindows.toNat ++ bytesOf 2 r.lateFrames.toNat
      ++ bytesOf 2 r.droppedFrames.toNat
  | .queryLeg cleared stream r n l fill =>
    queryHead cleared stream r ++ bytesOf 1 (legBit n + 1) ++ bytesOf 1 l.ingress ++ bytesOf 1 l.egress
      ++ bytesOf 1 l.framesPerWindow ++ bytesOf 1 l.misses
      ++ bytesOf 1 (speedCode (some l.speed) + 4 * l.smallestLead.isSome.toNat)
      ++ bytesOf 2 l.frameSize ++ bytesOf 3 l.offset ++ bytesOf 3 l.length ++ presentOr 3 l.smallestLead fill
  | .calendar c =>
    bytesOf 1 c.port ++ bytesOf 1 c.hExp ++ bytesOf 1 (c.pendingH.getD 0xFF) ++ bytesOf 1 c.freePlaces
      ++ bytesOf 2 c.generation.toNat ++ bytesOf 3 c.cap ++ bytesOf 3 c.peak ++ bytesOf 1 c.installed
      ++ bytesOf 1 c.staged ++ bytesOf 1 c.first ++ bytesOf 1 c.entries.length
      ++ ((c.entries.take 2).map calendarEntryBytes).flatten

/-! ### Whole frames -/

/-- The message kind byte: 0x80 reply, 0x81 notice, 0x82 beacon. -/
def Message.kindCode : Message → Nat
  | .answer .. => 0x80
  | .notice .. => 0x81
  | .beacon _ => 0x82

/-- The status byte, 0 in notices and beacons. -/
def Message.statusCode : Message → Nat
  | .answer _ _ st _ => st.code
  | _ => 0

/-- The tag, 0 in notices and beacons. -/
def Message.tag : Message → Nat
  | .answer _ tag _ _ => tag.toNat
  | _ => 0

/-- The body: a reply's begins with the kind code of the request it answers (R190). -/
def Message.body : Message → List Byte
  | .answer kind _ _ b => kind :: answerFields b
  | .notice kind stream hypercycle flags final =>
    bytesOf 1 kind.code ++ bytesOf 2 stream ++ bytesOf 4 hypercycle.toNat ++ bytesOf 1 (byteOfFlags flags)
      ++ bytesOf 1 (reasonCode (final.map fun x => x.1))
      ++ bytesOf 4 ((final.map fun x => x.2.1.toNat).getD 0) ++ bytesOf 2 ((final.map fun x => x.2.2.toNat).getD 0)
  | .beacon c =>
    bytesOf 1 c.unit ++ bytesOf 4 c.hypercycle.toNat ++ bytesOf 2 c.generation.toNat ++ bytesOf 1 c.cyc
      ++ bytesOf 1 c.hExp ++ bytesOf 1 c.held.toNat ++ bytesOf 1 c.queueLength

/-- The frame of a message: addresses, type, header, body, zero padding to byte 59, FCS (R190). DEDUCED: the header's
body length counts the bytes the message defines (assumption 21). -/
def frameOfMessage (unit : Fin 16) (dest : Addr) (m : Message) : Frame :=
  let head := bytesOf 6 dest.toNat ++ bytesOf 6 (deviceAddress unit).toNat ++ bytesOf 2 controlType
    ++ bytesOf 1 m.kindCode ++ bytesOf 1 m.statusCode ++ bytesOf 2 m.tag ++ bytesOf 2 m.body.length ++ m.body
  let padded := head ++ List.replicate (controlFrameLength - 4 - head.length) 0
  padded ++ fcsBytes padded

end Sys2Proof.Machine
end

