-- ==== Sys2Proof/Machine/Ops.lean ====
section
/-! DEFINITION. The operations that several commands share: reading ports, slots and streams; control-queue places,
answers and notices; the master table; pins; and the moves of a record (chapters 02, 05, 09). -/

namespace Sys2Proof.Machine

/-! ### Walks over the tables, in ascending order -/

/-- Apply `f` to every port in order. -/
def overPorts (f : Port → State → State) (s : State) : State := (List.finRange 8).foldl (fun s p => f p s) s

/-- Apply `f` to every slot in order. -/
def overSlots (f : Slot → State → State) (s : State) : State := (List.finRange 128).foldl (fun s i => f i s) s

/-- Apply `f` to every index of the master table in order. -/
def overMasters (f : MasterIndex → State → State) (s : State) : State :=
  (List.finRange 16).foldl (fun s m => f m s) s

/-- Apply `f` to every place of the station table in order. -/
def overPlaces (f : Place → State → State) (s : State) : State := (List.finRange 256).foldl (fun s i => f i s) s

/-! ### Reads -/

/-- The device is settling while the settle counter is above 0 (R8), and then until the end of the settle period is
taken: what falls together with that end follows the one taken first (R9, R10). -/
def State.settling (s : State) : Bool := 0 < s.time.settle || s.time.boundaryDue == .endOfSettle

/-- The device's own station address (R3). -/
def State.deviceAddr (s : State) : Addr := deviceAddress s.straps.unit

/-- The current speed of a port, present while it is UP or GOING_DOWN (R157, R159). -/
def State.portSpeed (s : State) (p : Port) : Option Speed := (s.ports[p]).link.speed

/-- A port is UP for every block in UP and GOING_DOWN (R157). -/
def State.portUp (s : State) (p : Port) : Bool := (s.portSpeed p).isSome

/-- The record of a slot; none when FREE. -/
def State.recordAt (s : State) (i : Slot) : Option Record := (s.slots[i]).record

/-- The slot's current stream number: slot × 32 + reuse (R17). -/
def State.streamOf (s : State) (i : Slot) : Nat := i.val * 32 + (s.slots[i]).reuse.toNat

/-- Resolve a stream number: the slot whose non-FREE record carries it; none when it is stale (R18). -/
def State.resolve (s : State) (n : Nat) : Option Slot :=
  if h : n / 32 < 128 then
    if (s.recordAt ⟨n / 32, h⟩).isSome && (s.slots[(⟨n / 32, h⟩ : Slot)]).reuse.toNat == n % 32
    then some ⟨n / 32, h⟩ else none
  else none

/-- The leg with number `n`, if the record has it (R20). -/
def Record.leg (r : Record) : LegNo → Option Leg
  | .leg0 => some r.leg0
  | .leg1 => r.leg1

/-- The legs of a record, leg 0 first. -/
def Record.legs (r : Record) : List Leg := r.leg0 :: r.leg1.toList

/-- Change one leg. -/
def Record.mapLeg (r : Record) (n : LegNo) (f : Leg → Leg) : Record :=
  match n with
  | .leg0 => { r with leg0 := f r.leg0 }
  | .leg1 => { r with leg1 := r.leg1.map f }

/-- Change every leg. -/
def Record.mapLegs (r : Record) (f : Leg → Leg) : Record := { r with leg0 := f r.leg0, leg1 := r.leg1.map f }

/-- Port `p` is the ingress or egress port of some leg. -/
def Record.onPort (r : Record) (p : Port) : Bool := r.legs.any fun l => l.ingress == p || l.egress == p

/-- The hold queue of leg `n`. -/
def SlotCell.queue (c : SlotCell) : LegNo → List HoldEntry
  | .leg0 => c.queue0
  | .leg1 => c.queue1

/-- Put a hold queue at leg `n`. -/
def SlotCell.setQueue (c : SlotCell) (n : LegNo) (q : List HoldEntry) : SlotCell :=
  match n with
  | .leg0 => { c with queue0 := q }
  | .leg1 => { c with queue1 := q }

/-! ### Control queues (R116, R117) -/

/-- Notices, refusals at the door and immediate answers are non-reply frames (R116). -/
def ControlFrame.nonReply (f : ControlFrame) : Bool :=
  match f.cls with
  | .reply _ => false
  | .notice _ | .other => true

/-- The non-reply places taken: queued frames, and the one in transmission, whose place is freed at its end (R116). -/
def PortState.nonReplies (ps : PortState) : Nat :=
  (ps.controlQueue.filter ControlFrame.nonReply).length
    + match ps.tx with
      | .busy (.control f) _ _ => f.nonReply.toNat
      | _ => 0

/-- The port is UP and has one of its 8 non-reply places free (R104, R115, R117). -/
def State.nonReplyFree (s : State) (p : Port) : Bool := s.portUp p && (s.ports[p]).nonReplies < 8

/-- Append a frame to the control queue of a port. -/
def State.enqueue (s : State) (p : Port) (f : ControlFrame) : State :=
  s.modPort p fun ps => { ps with controlQueue := ps.controlQueue ++ [f] }

/-- Queue an answer in a non-reply place, or drop it (R101, R117). -/
def sendNonReply (p : Port) (dest : Addr) (m : Message) (s : State) : State :=
  if s.nonReplyFree p then s.enqueue p { dest := dest, cls := .other, message := m } else s

/-! ### The master table (R96 to R99) -/

/-- Remove the entry when its phase is IDLE and its held count 0 (R98). -/
def dropIdleMaster (m : MasterIndex) (s : State) : State :=
  match s.masters[m] with
  | some e => if e.phase = .idle ∧ e.held = 0 then s.putMaster m none else s
  | none => s

/-- The entry goes to IDLE: request and awaited answer become absent, and R98 is applied. -/
def idleMaster (m : MasterIndex) (s : State) : State :=
  dropIdleMaster m (s.modMaster m fun e => { e with phase := .idle, request := none, awaited := none })

/-- The reply of a master has left or was removed: REPLY_DUE goes to IDLE (R113, R118, R149). -/
def replyGone (m : MasterIndex) (s : State) : State :=
  match s.masters[m] with
  | some e => if e.phase = .replyDue then idleMaster m s else s
  | none => s

/-- Answer a master's outstanding request: a reply on its port and REPLY_DUE, or, when the port is not UP, nothing and
IDLE (R107, R119). DEDUCED: a master with no outstanding request is owed nothing (assumption 31). -/
def answerMaster (m : MasterIndex) (st : Status) (body : AnswerBody) (s : State) : State :=
  match s.masters[m] with
  | none => s
  | some e =>
    match e.request with
    | none => s
    | some rq =>
      if s.portUp e.port then
        (s.enqueue e.port
          { dest := e.addr, cls := .reply m, message := .answer (BitVec.ofNat 8 rq.kind.code) rq.tag st body }).modMaster m
          fun e => { e with phase := .replyDue, awaited := none }
      else idleMaster m s

/-- The master goes to EXECUTING with the answer it awaits (R107). -/
def deferMaster (m : MasterIndex) (a : Awaited) (s : State) : State :=
  s.modMaster m fun e => { e with phase := .executing, awaited := some a }

/-- Raise a master's held count (R44). -/
def raiseHeld (m : MasterIndex) (s : State) : State := s.modMaster m fun e => { e with held := e.held + 1 }

/-- Lower a master's held count and apply R98 (R44). -/
def lowerHeld (m : MasterIndex) (s : State) : State :=
  dropIdleMaster m (s.modMaster m fun e => { e with held := e.held - 1 })

/-! ### Notices (R43, R114, R115) -/

/-- Set NOTICE_LOST on the record that still carries the stream number (R43, R115). DEDUCED: the number alone says which
record that is (assumption 38). -/
def loseNotice (n : Nat) (s : State) : State :=
  match s.resolve n with
  | some i => s.modRecord i fun r => { r with flags := { r.flags with noticeLost := true } }
  | none => s

/-- Hand the owner of a record a notice with its flags as they stand: queued in a non-reply place of the owner port,
or dropped with NOTICE_LOST (R114, R115). It carries the hypercycle number as counted when the change is taken. DESIGN
CHOICE: so a SUSPENDED or ACTIVE notice of a sample that is taken before the boundary of its tick carries the number of
the hypercycle that closes (R163; assumption 39). -/
def handNotice (k : NoticeKind) (i : Slot) (s : State) : State :=
  match s.recordAt i with
  | none => s
  | some r =>
    if s.nonReplyFree r.ownerPort then
      s.enqueue r.ownerPort
        { dest := r.ownerAddr, cls := .notice (s.streamOf i),
          message := .notice k (s.streamOf i) s.time.hypercycle r.flags none }
    else s.modRecord i fun r => { r with flags := { r.flags with noticeLost := true } }

/-- Hand the ENDED notice of a freed record, with its end reason and final counts; its loss, here or
later, sets no flag, and so its frame stands in the queue as one that names no record (R43, R114, R115). -/
def handEnded (n : Nat) (r : Record) (s : State) : State :=
  if s.nonReplyFree r.ownerPort then
    s.enqueue r.ownerPort
      { dest := r.ownerAddr, cls := .other,
        message := .notice .ended n s.time.hypercycle r.flags
          (r.endReason.map fun why => (why, r.delivered, r.missedWindows)) }
  else s

/-! ### Pins (R45, R170, R171) -/

/-- The place that holds an address (R167). -/
def State.placeOf (s : State) (a : Addr) : Option Place :=
  (List.finRange 256).find? fun i =>
    match s.stations[i] with
    | some e => e.addr == a
    | none => false

/-- The lowest-numbered place for which `f` holds. -/
def State.lowestPlace (s : State) (f : Option Station → Bool) : Option Place :=
  (List.finRange 256).find? fun i => f s.stations[i]

/-- Change the entry that holds an address. -/
def modStation (a : Addr) (f : Station → Station) (s : State) : State :=
  match s.placeOf a with
  | some i => s.putStation i (s.stations[i].map f)
  | none => s

/-- Raise the pin count of the entry that holds an address (R170). -/
def raisePin (a : Addr) (s : State) : State := modStation a (fun e => { e with pins := e.pins + 1 }) s

/-- Lower the pin count of the entry that holds an address, wherever it stands (R171). -/
def lowerPin (a : Addr) (s : State) : State := modStation a (fun e => { e with pins := e.pins - 1 }) s

/-! ### Moves of a record -/

/-- Flush the hold queues of a record into its dropped frames (R41). -/
def flushQueues (i : Slot) (s : State) : State :=
  s.modSlot i fun c =>
    { c with
      record := c.record.map fun r =>
        { r with droppedFrames := satAdd r.droppedFrames (c.queue0.length + c.queue1.length) }
      queue0 := []
      queue1 := [] }

/-- Set the retiring mark on each installed window of a slot (R60). -/
def markRetiring (i : Slot) (s : State) : State :=
  overPorts (fun p s => s.modPort p fun ps =>
    { ps with calendar := ps.calendar.map fun w =>
        match w.owner with
        | .leg j _ => if j = i then { w with retiring := true } else w
        | .beacon => w }) s

/-- A live instance of the slot's windows is lent from this moment (R66). -/
def releaseInstance (i : Slot) (c : CurrentInstance) : CurrentInstance :=
  match c with
  | .window w => if w.slot = i ∧ w.cls = .live then .window { w with cls := .released } else .window w
  | .beacon e => .beacon e
  | .none => .none

/-- The slot's current instances, on every port, are lent from this moment (R66). -/
def releaseInstances (i : Slot) (s : State) : State :=
  overPorts (fun p s => s.modPort p fun ps => { ps with current := releaseInstance i ps.current }) s

/-- The record enters ENDING (R34): reason, queues flushed, wake set emptied, windows marked retiring and lent. -/
def endRecord (i : Slot) (why : EndReason) (s : State) : State :=
  releaseInstances i (markRetiring i
    ((flushQueues i s).modRecord i fun r =>
      { r with state := .ending, endReason := some why, wake := .empty }))

/-- The record enters SUSPENDED (R32): queues flushed, misses 0, wake set emptied, windows lent, notice. -/
def suspendRecord (i : Slot) (s : State) : State :=
  handNotice .suspended i (releaseInstances i
    ((flushQueues i s).modRecord i fun r =>
      { r.mapLegs (fun l => { l with misses := 0 }) with state := .suspended, wake := .empty }))

/-- The slot's record becomes FREE (R17, R24, R39): reuse value, owner's held count, both pins; its hold queues cease
(R129). -/
def freeRecord (i : Slot) (s : State) : State :=
  match s.recordAt i with
  | none => s
  | some r =>
    lowerPin r.destAddr (lowerPin r.ownerAddr (lowerHeld r.owner
      (s.modSlot i fun c => { reuse := c.reuse + 1, record := none, queue0 := [], queue1 := [] })))

/-- Withdraw every entry of a slot from the change list (R59). -/
def withdraw (i : Slot) (s : State) : State :=
  { s with store := { s.store with changeList := s.store.changeList.filter fun e => e.slot != i } }

/-- Answer the owner's claim CANCELLED, if it awaits the grant of this slot (R108). -/
def answerCancelled (i : Slot) (n : Nat) (owner : MasterIndex) (cause : EndReason) (s : State) : State :=
  match s.masters[owner] with
  | some e => if e.awaited = some (.grant i) then answerMaster owner .cancelled (.cancelled n cause) s else s
  | none => s

/-- A PENDING record is cancelled (R24, R59, R108). -/
def cancelRecord (i : Slot) (cause : EndReason) (s : State) : State :=
  match s.recordAt i with
  | none => s
  | some r => answerCancelled i (s.streamOf i) r.owner cause (freeRecord i (withdraw i s))

/-- What a move or a clear does to a record by its state: PENDING is cancelled; ACTIVE, DORMANT and SUSPENDED end;
ENDING and FREE stay (R37, R38). -/
def endOrCancel (i : Slot) (why : EndReason) (s : State) : State :=
  match s.recordAt i with
  | none => s
  | some r =>
    match r.state with
    | .pending => cancelRecord i why s
    | .active | .dormant | .suspended => endRecord i why s
    | .ending => s

/-- Apply `endOrCancel` to the records for which `f` holds, in slot order. DESIGN CHOICE: that order
(assumption 17). -/
def endAll (f : Record → Bool) (why : EndReason) (s : State) : State :=
  overSlots (fun i s =>
    match s.recordAt i with
    | some r => if f r then endOrCancel i why s else s
    | none => s) s

/-- A pinned station has been seen on another port: every record that names it is affected (R37). -/
def stationMoved (a : Addr) (s : State) : State :=
  endAll (fun r => r.ownerAddr == a || r.destAddr == a) .stationMoved s

end Sys2Proof.Machine
end

