-- ==== Sys2Proof/Machine/Egress.lean ====
section
/-! DEFINITION. The egress schedulers (chapter 07): what bounds open time, the choice of the next frame, frames no gap
can hold, the open queue, the end of a transmission, and a port's loss. -/

namespace Sys2Proof.Machine

/-! ### Open time -/

/-- A window is bounding: the beacon window, a window of an ACTIVE record, or a window of a DORMANT record whose wake
set has its leg (R146). -/
def State.bounding (s : State) (w : Window) : Bool :=
  match w.owner with
  | .beacon => true
  | .leg i n =>
    match s.recordAt i with
    | some r => r.state == .active || (r.state == .dormant && r.wake.has n)
    | none => false

/-- A frame of wire time `wire` started now on port `p` ends by the next bounding opening (R146); in the settle period
that is the beacon opening at its end (R9). -/
def State.fits (s : State) (p : Port) (wire : Nat) : Bool :=
  if s.settling then wire ≤ s.time.settle * s.cycleTicks - s.time.tick
  else (s.ports[p]).calendar.all fun w =>
    !s.bounding w || wire ≤ w.distance s.cycleTicks s.time.b s.time.tick

/-! ### Frames removed without being sent -/

/-- A control frame is removed unsent: a reply's master goes to IDLE, a notice is lost, another answer leaves no trace
(R118, R115, R149). -/
def discardControl (f : ControlFrame) (s : State) : State :=
  match f.cls with
  | .reply m => replyGone m s
  | .notice n => loseNotice n s
  | .other => s

/-- Every frame of a port's control queue is removed unsent, head first (R118, R149). -/
def flushControl (p : Port) (s : State) : State :=
  (s.ports[p]).controlQueue.foldl (fun s f => discardControl f s)
    (s.modPort p fun ps => { ps with controlQueue := [] })

/-- Heads of the open queue whose wire time exceeds G are discarded and counted as open drops (R149). -/
def PortState.dropLongHeads (ps : PortState) (sp : Speed) : PortState :=
  { ps with
    openQueue := ps.openQueue.dropWhile fun f => ps.longestOpen < wireTime sp f.length
    openDrops := satAdd ps.openDrops
      (ps.openQueue.takeWhile fun f => ps.longestOpen < wireTime sp f.length).length }

/-- The heads of both queues of a port are tested against G at the port's present speed (R149). All control frames
have one length, so the control heads go one after another or not at all. DEDUCED: when the test is made (assumption 27). -/
def testHeads (p : Port) (s : State) : State :=
  match s.portSpeed p with
  | none => s
  | some sp =>
    (if (s.ports[p]).longestOpen < wireTime sp controlFrameLength then flushControl p s else s).modPort p
      fun ps => ps.dropLongHeads sp

/-! ### The choice of the next frame -/

/-- In a live instance the ready head of the leg's hold queue is started if the instance has sent fewer frames than the
leg's frames per window and the frame ends by the instance's end (R143, R130). -/
def startWindowFrame (p : Port) (sp : Speed) (w : WindowInstance) (s : State) : State :=
  match s.recordAt w.slot with
  | none => s
  | some r =>
    match r.leg w.leg, (s.slots[w.slot]).queue w.leg with
    | some l, e :: rest =>
      if e.mark ≠ .waiting ∧ w.sent < l.framesPerWindow ∧ s.time.now + wireTime sp e.frame.length ≤ w.endAt then
        (s.modSlot w.slot fun c => c.setQueue w.leg rest).modPort p fun ps =>
          { ps with
            tx := .busy (.window w.slot w.leg) e.frame (s.time.now + wireTime sp e.frame.length)
            current := .window { w with sent := w.sent + 1 } }
      else s
    | _, _ => s

/-- The head of the open queue is started if it fits (R147 step 2). -/
def startOpenHead (p : Port) (sp : Speed) (s : State) : State :=
  match (s.ports[p]).openQueue with
  | f :: rest =>
    if s.fits p (wireTime sp f.length) then
      s.modPort p fun ps =>
        { ps with tx := .busy .openFrame f (s.time.now + wireTime sp f.length), openQueue := rest }
    else s
  | [] => s

/-- In open time the control head is started if it fits, otherwise the open head if it fits (R147). -/
def startOpenTimeFrame (p : Port) (sp : Speed) (s : State) : State :=
  match (s.ports[p]).controlQueue with
  | f :: rest =>
    if s.fits p (wireTime sp controlFrameLength) then
      s.modPort p fun ps =>
        { ps with
          tx := .busy (.control f) (frameOfMessage s.straps.unit f.dest f.message)
            (s.time.now + wireTime sp controlFrameLength)
          controlQueue := rest }
    else startOpenHead p sp s
  | [] => startOpenHead p sp s

/-- The choice of a FREE transmitter on an UP port: in a live instance R143, otherwise R147 (R140, R153). -/
def chooseFrame (p : Port) (s : State) : State :=
  match s.portSpeed p, (s.ports[p]).tx with
  | some sp, .free =>
    match (s.ports[p]).current with
    | .window w => if w.cls = .live then startWindowFrame p sp w s else startOpenTimeFrame p sp s
    | .beacon _ => startOpenTimeFrame p sp s
    | .none => startOpenTimeFrame p sp s
  | _, _ => s

/-- One port's scheduler after an event: heads tested, a frame chosen, the new heads tested. -/
def schedulePort (p : Port) (s : State) : State := testHeads p (chooseFrame p (testHeads p s))

/-- Every port's scheduler applies its choice again (R143, R147, R149; assumption 28). -/
def settleEgress (s : State) : State := overPorts schedulePort s

/-! ### The open queue (R150) -/

/-- The bytes in an open queue (R150). -/
def bytesIn (q : List Frame) : Nat := (q.map List.length).sum

/-- A frame handed to a port's open queue is appended, or dropped and counted (R150). -/
def PortState.takeOpen (ps : PortState) (f : Frame) : PortState :=
  if ps.link.speed.isSome ∧ ps.openQueue.length < 64 ∧ bytesIn ps.openQueue + f.length ≤ 32768 then
    { ps with openQueue := ps.openQueue ++ [f] }
  else { ps with openDrops := satSucc ps.openDrops }

/-- Hand a frame to the open queue of port `p`. -/
def handOpen (p : Port) (f : Frame) (s : State) : State := s.modPort p fun ps => ps.takeOpen f

/-! ### Ends and losses -/

/-- The wire time of the port's frame has ended by now (R139). -/
def transmissionEnded (p : Port) (s : State) : Bool :=
  match (s.ports[p]).tx with
  | .busy _ _ t => t ≤ s.time.now
  | .free => false

/-- The transmitter is FREE again; a control frame's place is freed, and a reply's master goes to IDLE (R139, R151,
R113). -/
def endTransmission (p : Port) (s : State) : State :=
  match (s.ports[p]).tx with
  | .busy (.control f) _ _ =>
    match f.cls with
    | .reply m => replyGone m (s.modPort p fun ps => { ps with tx := .free })
    | .notice _ | .other => s.modPort p fun ps => { ps with tx := .free }
  | _ => s.modPort p fun ps => { ps with tx := .free }

/-- The frame in transmission is abandoned; a control frame counts as flushed (R152). -/
def abandonTransmission (p : Port) (s : State) : State :=
  match (s.ports[p]).tx with
  | .busy (.control f) _ _ => discardControl f (s.modPort p fun ps => { ps with tx := .free })
  | _ => s.modPort p fun ps => { ps with tx := .free }

/-- The port has left UP: transmitter stopped, control and open queues flushed (R152, R118). -/
def egressLoss (p : Port) (s : State) : State :=
  (flushControl p (abandonTransmission p s)).modPort p fun ps => { ps with openQueue := [] }

/-- The beacon is started, on an UP port with a FREE transmitter (R141, R14). -/
def startBeacon (p : Port) (s : State) : State :=
  match s.portSpeed p, (s.ports[p]).tx, s.beacon with
  | some sp, .free, some c =>
    s.modPort p fun ps =>
      { ps with
        tx := .busy .beacon (frameOfMessage s.straps.unit broadcast (.beacon c))
          (s.time.now + wireTime sp controlFrameLength) }
  | _, _, _ => s

end Sys2Proof.Machine
end

