-- ==== Sys2Proof/Machine/Reservation.lean ====
section
/-! DEFINITION. The reservation table's answers to reports: window ends, dormancy and waking, links, installation
(chapter 02), and the late policy of the hold queues (R135). -/

namespace Sys2Proof.Machine

/-! ### Window ends -/

/-- The late policy of the egress port at the end of a live instance: HOLD marks late entries ready, DROP removes them
into the dropped frames (R135). -/
def applyLatePolicy (p : Port) (i : Slot) (n : LegNo) (s : State) : State :=
  match (s.ports[p]).policy.late with
  | .hold => s.modSlot i fun c =>
      c.setQueue n ((c.queue n).map fun e => if e.mark = .late then { e with mark := .ready } else e)
  | .drop => s.modSlot i fun c =>
      { c.setQueue n ((c.queue n).filter fun e => e.mark != .late) with
        record := c.record.map fun r =>
          { r with droppedFrames := satAdd r.droppedFrames ((c.queue n).filter fun e => e.mark == .late).length } }

/-- A counted report of a delivered window (R26). -/
def countDelivered (i : Slot) (n : LegNo) (s : State) : State :=
  match n with
  | .leg1 => s.modRecord i fun r => r.mapLeg .leg1 fun l => { l with misses := 0 }
  | .leg0 =>
    let s := s.modRecord i fun r =>
      { r.mapLeg .leg0 (fun l => { l with misses := 0 }) with
        delivered := r.delivered + 1
        remaining := r.remaining.map fun k => k - 1 }
    match s.recordAt i with
    | some r => if r.remaining = some 0 then endRecord i .countDone s else s
    | none => s

/-- A counted report of a missed window (R27). -/
def countMissed (i : Slot) (n : LegNo) (s : State) : State :=
  s.modRecord i fun r =>
    { r.mapLeg n (fun l => { l with misses := missSucc l.misses }) with
      missedWindows := satSucc r.missedWindows
      flags := { r.flags with missed := true } }

/-- A hold queue holds at least one frame that is already ready (R31). -/
def hasReady (q : List HoldEntry) : Bool := q.any fun e => e.mark != .waiting

/-- The record goes DORMANT: DORMANT_SEEN, wake set by R31, notice (R28). -/
def goDormant (i : Slot) (s : State) : State :=
  handNotice .dormant i (s.modSlot i fun c =>
    { c with record := c.record.map fun r =>
        { r with
          state := .dormant
          flags := { r.flags with dormantSeen := true }
          wake := ⟨hasReady c.queue0, r.leg1.isSome && hasReady c.queue1⟩ } })

/-- Every leg of the record is at or above the miss limit of its egress port (R28). -/
def State.allAtLimit (s : State) (r : Record) : Bool :=
  r.legs.all fun l => (s.ports[l.egress]).policy.missLimit ≤ l.misses

/-- The test for dormancy after a counted report (R28). -/
def testDormancy (i : Slot) (s : State) : State :=
  match s.recordAt i with
  | some r => if r.state = .active ∧ s.allAtLimit r then goDormant i s else s
  | none => s

/-- The table takes a window-end report: counted for an instance that opened live of an ACTIVE record, otherwise
ignored (R25). -/
def windowReport (i : Slot) (n : LegNo) (openedLive delivered : Bool) (s : State) : State :=
  match s.recordAt i with
  | none => s
  | some r =>
    if openedLive ∧ r.state = .active then
      testDormancy i (if delivered then countDelivered i n s else countMissed i n s)
    else s

/-! ### Waking -/

/-- The record wakes at the opening of a leg in its wake set (R30). -/
def wakeRecord (i : Slot) (s : State) : State :=
  handNotice .active i (s.modRecord i fun r =>
    { r.mapLegs (fun l => { l with misses := 0 }) with state := .active, wake := .empty })

/-! ### Links and installation -/

/-- Some leg's egress port is UP at a speed other than the leg's admitted speed (R23, R33). -/
def State.otherSpeed (s : State) (r : Record) : Bool :=
  r.legs.any fun l =>
    match s.portSpeed l.egress with
    | some v => v != l.speed
    | none => false

/-- Every leg port is UP, each egress port at its leg's admitted speed (R23, R33). -/
def State.legsUp (s : State) (r : Record) : Bool :=
  r.legs.all fun l => s.portUp l.ingress && s.portSpeed l.egress == some l.speed

/-- A port leaves UP: every ACTIVE or DORMANT record with a leg on it goes to SUSPENDED (R32). DESIGN CHOICE: in slot
order, so their notices too (assumption 17). -/
def portDepartsFromRecords (p : Port) (s : State) : State :=
  overSlots (fun i s =>
    match s.recordAt i with
    | some r =>
      if r.onPort p ∧ (r.state = .active ∨ r.state = .dormant) then suspendRecord i s else s
    | none => s) s

/-- A SUSPENDED record resumes (R33). -/
def resumeRecord (i : Slot) (s : State) : State :=
  handNotice .active i (s.modRecord i fun r => { r with state := .active })

/-- A port comes UP: every SUSPENDED record with a leg on it ends, resumes or stays (R33). DESIGN CHOICE: in slot order,
so their notices too (assumption 17). -/
def portArrivesAtRecords (p : Port) (s : State) : State :=
  overSlots (fun i s =>
    match s.recordAt i with
    | some r =>
      if r.onPort p ∧ r.state = .suspended then
        if s.otherSpeed r then endRecord i .speedChanged s
        else if s.legsUp r then resumeRecord i s
        else s
      else s
    | none => s) s

/-- The GRANTED reply of an installed record, to the owner that awaits the grant of this slot (R109, R111). -/
def answerGranted (i : Slot) (r : Record) (st : RecordState) (s : State) : State :=
  match s.masters[r.owner] with
  | some e =>
    if e.awaited = some (.grant i) then
      answerMaster r.owner .granted
        (.granted
          { state := st, stream := s.streamOf i, firstHypercycle := s.time.hypercycle,
            generation := s.store.generation, rate := r.rate, phase := r.phase, leg0 := r.leg0, leg1 := r.leg1 }) s
    else s
  | none => s

/-- The switch has installed the slot's legs: first hypercycle, ACTIVE or SUSPENDED, ENDING at once on another speed,
and the GRANTED reply with the state taken (R23, R111). -/
def installRecord (i : Slot) (s : State) : State :=
  match s.recordAt i with
  | none => s
  | some r =>
    if r.state = .pending then
      let st : RecordState := if s.legsUp r then .active else .suspended
      let s1 := s.modRecord i fun r => { r with state := st, firstHypercycle := some s.time.hypercycle }
      answerGranted i r st (if s.otherSpeed r then endRecord i .speedChanged s1 else s1)
    else s

/-- RELEASED to a release waiter that awaits it (R39, R109). -/
def answerReleased (i : Slot) (n : Nat) (m : MasterIndex) (s : State) : State :=
  match s.masters[m] with
  | some e =>
    if e.awaited = some (.release i) then answerMaster m .released (.released n s.store.generation) s else s
  | none => s

/-- The switch frees an ENDING record: FREE, RELEASED to each release waiter in order, and the ENDED notice when the
owner is not among them (R39, R109). -/
def freeEnding (i : Slot) (s : State) : State :=
  match s.recordAt i with
  | none => s
  | some r =>
    let n := s.streamOf i
    let s1 := r.waiters.foldl (fun s m => answerReleased i n m s) (freeRecord i s)
    if r.owner ∈ r.waiters then s1 else handEnded n r s1

end Sys2Proof.Machine
end

