-- ==== Sys2Proof/Machine/Stations.lean ====
section
/-! DEFINITION. The station table (chapter 09): learning and moves, the pins of a grant, destination lookup, the sweep,
a port's departure, and the forwarding of open frames. -/

namespace Sys2Proof.Machine

/-- Learn the source address of an open or control frame that arrived on port `p` (R168, R169). A move of a pinned
entry is reported to the reservation table (R37). -/
def learn (p : Port) (a : Addr) (s : State) : State :=
  if isGroup a ∨ a = s.deviceAddr then s
  else
    match s.placeOf a with
    | none =>
      match s.lowestPlace Option.isNone with
      | none => s
      | some i => s.putStation i (some { addr := a, port := p, seen := true, pins := 0 })
    | some i =>
      match s.stations[i] with
      | none => s
      | some e =>
        let s1 := s.putStation i (some { e with port := p, seen := true })
        if e.port ≠ p ∧ 0 < e.pins then stationMoved a s1 else s1

/-- The place for a new owner entry at a grant: a free place, else the lowest entry neither pinned nor seen, else the
lowest unpinned one (R170). -/
def State.placeForOwner (s : State) : Option Place :=
  match s.lowestPlace Option.isNone with
  | some i => some i
  | none =>
    match s.lowestPlace fun e => e.any fun e => e.pins == 0 && !e.seen with
    | some i => some i
    | none => s.lowestPlace fun e => e.any fun e => e.pins == 0

/-- The owner's pin at a grant: its entry is found, moved to the arrival port (and the move reported before the new
pin), or made (R170). DEDUCED: the entry so moved is marked seen, as at every move (assumption 23). -/
def pinOwner (p : Port) (a : Addr) (s : State) : State :=
  match s.placeOf a with
  | some i =>
    match s.stations[i] with
    | none => s
    | some e =>
      let s1 := s.putStation i (some { e with port := p, seen := true })
      raisePin a (if e.port ≠ p ∧ 0 < e.pins then stationMoved a s1 else s1)
  | none =>
    match s.placeForOwner with
    | some i => s.putStation i (some { addr := a, port := p, seen := true, pins := 1 })
    | none => s

/-- Both pins of a grant, the destination's first (R170). -/
def pinForGrant (p : Port) (owner dest : Addr) (s : State) : State := pinOwner p owner (raisePin dest s)

/-- The port of a claim's destination, or unknown (R172). -/
def State.lookup (s : State) (dest source : Addr) (arrival : Port) : Option Port :=
  if dest = source then some arrival
  else
    match s.placeOf dest with
    | some i => (s.stations[i]).map Station.port
    | none => none

/-- The sweep of one place: an unseen unpinned entry is removed, and the seen flag of one that remains is cleared
(R174). -/
def sweepEntry (e : Option Station) : Option Station :=
  match e with
  | none => none
  | some e => if e.seen = false ∧ e.pins = 0 then none else some { e with seen := false }

/-- The sweep of the whole table; the count returns to 0 (R173, R174). -/
def sweepTable (s : State) : State :=
  { overPlaces (fun i s => s.putStation i (sweepEntry s.stations[i])) s with
    ageing := { s.ageing with sweepCount := 0 } }

/-- A port's departure removes its unpinned entries (R175). -/
def departEntry (p : Port) (e : Option Station) : Option Station :=
  match e with
  | none => none
  | some e => if e.port = p ∧ e.pins = 0 then none else some e

/-- A port's departure, over the table (R175). -/
def portDepartsFromStations (p : Port) (s : State) : State :=
  overPlaces (fun i s => s.putStation i (departEntry p s.stations[i])) s

/-- Hand an open frame to the open queue of every port that is UP but the arrival port (R176). -/
def flood (arrival : Port) (f : Frame) (s : State) : State :=
  overPorts (fun q s => if q ≠ arrival ∧ s.portUp q then handOpen q f s else s) s

/-- Forward an open frame: discarded, flooded, or handed to one port (R176). -/
def forward (arrival : Port) (f : Frame) (s : State) : State :=
  if destinationOf f = s.deviceAddr then s
  else if isGroup (destinationOf f) then flood arrival f s
  else
    match s.placeOf (destinationOf f) with
    | none => flood arrival f s
    | some i =>
      match s.stations[i] with
      | none => s
      | some e => if e.port = arrival then s else handOpen e.port f s

end Sys2Proof.Machine
end

