-- ==== Sys2Proof/Machine/Admission.lean ====
section
/-! DEFINITION. The admission unit (chapter 04): the ordered checks of a CLAIM, the grant, the wait for change-list room,
and the decision of a RELEASE: the commands CLAIM, TAKE_UP_WAITING_CLAIM and RELEASE. -/

namespace Sys2Proof.Machine

/-! ### The request queue -/

/-- The request the unit takes: the head of the queue, when the unit is free (R73, R75). -/
def State.headRequest (s : State) : Option Request :=
  if s.resetAsserted || s.admission.waiting != .none then none else s.admission.queue.head?

/-- The head request leaves the queue at its decision (R72). -/
def leaveQueue (s : State) : State :=
  { s with admission := { s.admission with queue := s.admission.queue.tail } }

/-- The port is master-capable or the administrator port (R78, R92). -/
def State.mayAsk (s : State) (p : Port) : Bool := (s.ports[p]).policy.masterCapable || p == s.straps.adm

/-- The held count of a master (R44). -/
def State.heldCount (s : State) (m : MasterIndex) : Nat := ((s.masters[m]).map Master.held).getD 0

/-! ### The checks of a CLAIM (R76, R77) -/

/-- EXACT mode. -/
def ClaimFields.exact (c : ClaimFields) : Bool := c.mode == 1

/-- The first field out of range in the order of R76, by its offset in the body. -/
def claimRange (h cycleTicks : Nat) (c : ClaimFields) : Option Nat :=
  if isGroup c.dest then some 0
  else if 1 < c.mode then some 6
  else if h < c.rate then some 7
  else if c.exact ∧ 2 ^ c.rate ≤ c.phase then some 9
  else if c.exact ∧ (c.offset % 16 ≠ 0 ∨ cycleTicks ≤ c.offset) then some 20
  else if c.size0 = 0 ∨ 1522 < c.size0 then some 12
  else if c.frames0 = 0 ∨ 8 < c.frames0 then some 10
  else if c.returnLeg ∧ (c.size1 = 0 ∨ 1522 < c.size1) then some 14
  else if c.returnLeg ∧ (c.frames1 = 0 ∨ 8 < c.frames1) then some 11
  else if c.returnLeg ∧ 65520 < c.turnaround then some 16
  else none

/-- The lowest-numbered FREE slot (R21). -/
def State.freeSlot (s : State) : Option Slot := (List.finRange 128).find? fun i => (s.recordAt i).isNone

/-- The plan of one leg: window length by R80 at the egress port's speed and jitter allowance, and the port's cap. -/
def State.legPlan (s : State) (egress : Port) (sp : Speed) (frames size : Nat) : LegPlan :=
  { egress := egress, speed := sp,
    length := windowLength frames size sp (s.ports[egress]).policy.jitter, cap := s.cap egress }

/-- The window lengths and caps a TOO_LONG or NO_ROOM reply carries (R112). -/
def planLengths (l0 : LegPlan) (ret : Option LegPlan) : AnswerBody :=
  .lengths l0.length l0.cap (ret.map fun l => (l.length, l.cap))

/-- What the unit decides of a CLAIM. -/
inductive ClaimOutcome where
  | refuse (st : Status) (body : AnswerBody)
  | wait
  | grant (slot : Slot) (l0 : LegPlan) (ret : Option LegPlan) (place : Placement)
deriving DecidableEq, Repr

/-- The legs of a claim: 1 or 2. -/
def ClaimFields.legCount (c : ClaimFields) : Nat := if c.returnLeg then 2 else 1

/-- The turnaround as the search reads it: rounded up to 16 (R76, R87). -/
def ClaimFields.gap (c : ClaimFields) : Nat := ceil16 c.turnaround

/-- The place of a claim, by its mode (R84, R85, R88). -/
def State.placeClaim (s : State) (c : ClaimFields) (l0 : LegPlan) (ret : Option LegPlan) : Option Placement :=
  if c.exact then s.exactPlace l0 ret c.gap c.rate c.phase c.offset
  else s.search l0 ret c.gap c.rate c.phase c.offset

/-- Steps 8 to 9 of R77: TOO_LONG, the end bound of an EXACT offset, the wait for room, and the search. -/
def State.decidePlace (s : State) (c : ClaimFields) (slot : Slot) (l0 : LegPlan) (ret : Option LegPlan) :
    ClaimOutcome :=
  if l0.cap < l0.length ∨ (ret.any fun l => l.cap < l.length) then .refuse .tooLong (planLengths l0 ret)
  else if c.exact ∧ s.cycleTicks < c.offset + l0.length then .refuse .range (.failingField 20)
  else if s.freePlaces < c.legCount then .wait
  else
    match s.placeClaim c l0 ret with
    | none => .refuse .noRoom (planLengths l0 ret)
    | some place => .grant slot l0 ret place

/-- Steps 6 and 7 of R77, then the rest: QUOTA and TABLE_FULL (R79). -/
def State.decideRoom (s : State) (rq : Request) (c : ClaimFields) (l0 : LegPlan) (ret : Option LegPlan) :
    ClaimOutcome :=
  if (s.ports[rq.port]).policy.quota ≤ s.heldCount rq.master then
    .refuse .quota (.quota (s.heldCount rq.master) (s.ports[rq.port]).policy.quota)
  else
    match s.freeSlot with
    | none => .refuse .tableFull .kindAlone
    | some slot => s.decidePlace c slot l0 ret

/-- Step 5 of R77, then the rest: each leg's egress port must be UP; its speed is the one admitted (R78). -/
def State.decidePorts (s : State) (rq : Request) (c : ClaimFields) (destPort : Port) : ClaimOutcome :=
  match s.portSpeed destPort with
  | none => .refuse .portDown .kindAlone
  | some sp0 =>
    let l0 := s.legPlan destPort sp0 c.frames0 c.size0
    if c.returnLeg then
      match s.portSpeed rq.port with
      | none => .refuse .portDown .kindAlone
      | some sp1 => s.decideRoom rq c l0 (some (s.legPlan rq.port sp1 c.frames1 c.size1))
    else s.decideRoom rq c l0 none

/-- The decision of a CLAIM: the first check of R77 that fails decides. -/
def State.decideClaim (s : State) (rq : Request) (c : ClaimFields) : ClaimOutcome :=
  if s.admission.held || s.store.pendingH.isSome then .refuse .held .kindAlone
  else if !s.mayAsk rq.port then .refuse .notPermitted .kindAlone
  else
    match claimRange s.time.hExp s.cycleTicks c with
    | some field => .refuse .range (.failingField field)
    | none =>
      match s.lookup c.dest rq.addr rq.port with
      | none => .refuse .unknownDest .kindAlone
      | some destPort =>
        if destPort = rq.port then .refuse .samePort .kindAlone
        else s.decidePorts rq c destPort

/-! ### The grant (R90, R22, R58, R44, R170) -/

/-- A leg as the grant makes it: misses 0, no smallest lead, the declared size raised to 64 (R22, R76). -/
def grantedLegOf (ingress : Port) (l : LegPlan) (frames size offset : Nat) : Leg :=
  { ingress := ingress, egress := l.egress, frameSize := max size 64, framesPerWindow := frames, offset := offset,
    length := l.length, speed := l.speed, misses := 0, smallestLead := none }

/-- The record of a granted claim (R22). -/
def grantedRecord (rq : Request) (c : ClaimFields) (l0 : LegPlan) (ret : Option LegPlan) (place : Placement) :
    Record where
  state := .pending
  owner := rq.master
  ownerPort := rq.port
  ownerAddr := rq.addr
  destAddr := c.dest
  rate := c.rate
  phase := place.phase
  leg0 := grantedLegOf rq.port l0 c.frames0 c.size0 place.offset0
  leg1 := ret.map fun l => grantedLegOf l0.egress l c.frames1 c.size1 (place.offset1.getD 0)
  turnaround := ret.map fun _ => c.gap
  remaining := if c.remaining = 0 then none else some c.remaining
  flags := .empty
  delivered := 0
  missedWindows := 0
  lateFrames := 0
  droppedFrames := 0
  wake := .empty
  endReason := none
  waiters := []
  firstHypercycle := none

/-- A leg of a record as it is staged (R57). -/
def stagedLegOf (i : Slot) (r : Record) (n : LegNo) (l : Leg) : StagedLeg :=
  { egress := l.egress, offset := l.offset, length := l.length, rate := r.rate, phase := r.phase, slot := i, leg := n }

/-- The legs of a record as they are staged, leg 0 first (R58). -/
def stagedLegsOf (i : Slot) (r : Record) : List StagedLeg :=
  stagedLegOf i r .leg0 r.leg0 :: (r.leg1.map (stagedLegOf i r .leg1)).toList

/-- The record stands in its slot, its legs in the change list, and its owner's held count is raised (R90). -/
def enterRecord (i : Slot) (r : Record) (s : State) : State :=
  let t := s.modSlot i fun c => { c with record := some r, queue0 := [], queue1 := [] }
  raiseHeld r.owner
    { t with store := { s.store with changeList := s.store.changeList ++ stagedLegsOf i r } }

/-- The grant in one act (R90): the pins, with the move they may report, which does not touch the new record (R170); the
record, its staged legs and the held count; and the owner EXECUTING until the switch (R107). -/
def grantClaim (rq : Request) (c : ClaimFields) (i : Slot) (l0 : LegPlan) (ret : Option LegPlan) (place : Placement)
    (s : State) : State :=
  deferMaster rq.master (.grant i)
    (enterRecord i (grantedRecord rq c l0 ret place) (pinForGrant rq.port rq.addr c.dest s))

/-- The unit takes a CLAIM and decides it: refused, waiting, or granted (R77, R75, R90). -/
def takeClaim (rq : Request) (c : ClaimFields) (s : State) : State :=
  match s.decideClaim rq c with
  | .refuse st body => answerMaster rq.master st body (leaveQueue s)
  | .wait => { s with admission := { s.admission with waiting := .waiting } }
  | .grant i l0 ret place => grantClaim rq c i l0 ret place (leaveQueue s)

/-- CLAIM (R77 to R91). No effect unless a CLAIM is at the head of the queue and the unit is free. -/
def execClaim (s : State) : Host.Outcome State Fault Refusal :=
  match s.headRequest with
  | some rq =>
    match rq.body with
    | .claim c => .next (settleEgress (takeClaim rq c s))
    | _ => .next s
  | none => .next s

/-- TAKE_UP_WAITING_CLAIM (R75): after the switch the waiting claim is taken again, as a new taking. No effect while no
claim is to be taken up. -/
def execTakeUpWaitingClaim (s : State) : Host.Outcome State Fault Refusal :=
  if s.resetAsserted then .next s
  else if s.admission.waiting = .takeUp then
    match s.admission.queue.head? with
    | some rq =>
      match rq.body with
      | .claim c =>
        .next (settleEgress (takeClaim rq c { s with admission := { s.admission with waiting := .none } }))
      | _ => .next s
    | none => .next s
  else .next s

/-! ### RELEASE (R92, R35) -/

/-- The sender owns the record: same port and address (R92). -/
def Request.owns (rq : Request) (r : Record) : Bool := rq.port == r.ownerPort && rq.addr == r.ownerAddr

/-- The sender joins the record's release waiters, once, and stays EXECUTING (R35). -/
def joinWaiters (i : Slot) (m : MasterIndex) (s : State) : State :=
  deferMaster m (.release i)
    (s.modRecord i fun r => { r with waiters := if m ∈ r.waiters then r.waiters else r.waiters ++ [m] })

/-- An answer due at the next switch, in the order in which the requests were decided (R109 item 3). -/
def deferToSwitch (m : MasterIndex) (a : Awaited) (s : State) : State :=
  deferMaster m a { s with switchAnswers := s.switchAnswers ++ [m] }

/-- A RELEASE of slot `i` by its owner or the administrator, by the record's state (R35). -/
def releaseRecord (m : MasterIndex) (n : Nat) (i : Slot) (r : Record) (s : State) : State :=
  match r.state with
  | .pending => deferToSwitch m (.releasedAtSwitch n) (cancelRecord i .released s)
  | .active | .dormant | .suspended => joinWaiters i m (endRecord i .released s)
  | .ending => joinWaiters i m s

/-- The decision of a RELEASE of stream `n` (R92). -/
def takeRelease (rq : Request) (n : Nat) (s : State) : State :=
  if !s.mayAsk rq.port then answerMaster rq.master .notPermitted .kindAlone (leaveQueue s)
  else
    match s.resolve n with
    | none => answerMaster rq.master .noStream (.stream n) (leaveQueue s)
    | some i =>
      match s.recordAt i with
      | none => s
      | some r =>
        if !rq.owns r && rq.port != s.straps.adm then answerMaster rq.master .notOwner (.stream n) (leaveQueue s)
        else releaseRecord rq.master n i r (leaveQueue s)

/-- RELEASE (R92, R35, R36). No effect unless a RELEASE is at the head of the queue and the unit is free. -/
def execRelease (s : State) : Host.Outcome State Fault Refusal :=
  match s.headRequest with
  | some rq =>
    match rq.body with
    | .release n => .next (settleEgress (takeRelease rq n s))
    | _ => .next s
  | none => .next s

end Sys2Proof.Machine
end

