-- ==== Sys2Proof/Machine/Conversation.lean ====
section
/-! DEFINITION. The conversation unit at the door (R100 to R106) and its immediate answers, the commands QUERY,
READ_CALENDAR and READ_PORT (R104, R105, R67, R68, R186, R191). -/

namespace Sys2Proof.Machine

/-! ### The door -/

/-- The entry of the master with this port and address (R96). -/
def State.masterOf (s : State) (p : Port) (a : Addr) : Option MasterIndex :=
  (List.finRange 16).find? fun m =>
    match s.masters[m] with
    | some e => e.port == p && e.addr == a
    | none => false

/-- The lowest-numbered free index of the master table (R97). -/
def State.freeMaster (s : State) : Option MasterIndex :=
  (List.finRange 16).find? fun m => (s.masters[m]).isNone

/-- A refusal at the door: the kind and the tag as received, in a non-reply place (R101). -/
def refuseAtDoor (p : Port) (f : Frame) (st : Status) (body : AnswerBody) (s : State) : State :=
  sendNonReply p (sourceOf f) (.answer (BitVec.ofNat 8 (kindOf f)) (tagOf f) st body) s

/-- A queued request is accepted: its master goes to QUEUED with the kind and tag, and the request joins the queue
(R106). -/
def acceptRequest (m : MasterIndex) (p : Port) (f : Frame) (k : RequestKind) (b : QueuedBody) (s : State) : State :=
  let t := s.modMaster m fun e => { e with phase := .queued, request := some ⟨k, tagOf f⟩ }
  { t with
    admission :=
      { s.admission with queue := s.admission.queue ++ [{ master := m, port := p, addr := sourceOf f, body := b }] } }

/-- Steps 5 to 7 of R101: BUSY, NO_MASTER_SLOT, or accepted, with an entry made for an unknown master (R97, R102). -/
def takeQueued (p : Port) (f : Frame) (k : RequestKind) (b : QueuedBody) (s : State) : State :=
  match s.masterOf p (sourceOf f) with
  | some m =>
    match s.masters[m] with
    | none => s
    | some e =>
      if e.phase = .idle then acceptRequest m p f k b s
      else
        refuseAtDoor p f .busy (match e.request with
          | some rq => .busy e.phase rq
          | none => .kindAlone) s
  | none =>
    match s.freeMaster with
    | none => refuseAtDoor p f .noMasterSlot .kindAlone s
    | some m =>
      acceptRequest m p f k b (s.putMaster m (some
        { port := p, addr := sourceOf f, phase := .idle, held := 0, request := none, awaited := none }))

/-- The checks of R101 in order; an immediate request that reaches step 4 is handed on to be answered
(assumption 15). -/
def takeRequest (p : Port) (f : Frame) (s : State) : State :=
  if s.settling then refuseAtDoor p f .starting .kindAlone s
  else
    match requestKindOf (kindOf f) with
    | none => refuseAtDoor p f .invalid .kindAlone s
    | some k =>
      if bodyLengthOf f ≠ k.bodyLength then refuseAtDoor p f .invalid .kindAlone s
      else if k.administrator ∧ p ≠ s.straps.adm then refuseAtDoor p f .notAdmin .kindAlone s
      else
        match decodeBody k f with
        | .immediate b =>
          { s with inbox := s.inbox ++ [{ port := p, addr := sourceOf f, tag := tagOf f, body := b }] }
        | .queued b => takeQueued p f k b s

/-- A control frame: discarded without effect from the device's own address or a group address, or of a kind the device
sends; otherwise taken as a request (R100). -/
def takeControl (p : Port) (f : Frame) (s : State) : State :=
  if sourceOf f = s.deviceAddr ∨ isGroup (sourceOf f) ∨ isDeviceKind (kindOf f) then s else takeRequest p f s

/-! ### Immediate answers -/

/-- An immediate answer in a non-reply place (R104, R105). -/
def answerNow (rq : ImmediateRequest) (k : RequestKind) (st : Status) (body : AnswerBody) (s : State) : State :=
  sendNonReply rq.port rq.addr (.answer (BitVec.ofNat 8 k.code) rq.tag st body) s

/-- The part of a record that an OK answer to a QUERY carries (R191). DEDUCED: `cleared` says that the owner asked with
a clear set that names a flag (assumption 22). -/
def queryPart (part : Nat) (cleared : Bool) (n : Nat) (r : Record) (fill : Nat) : AnswerBody :=
  match part, r.leg1 with
  | 0, _ => .queryRecord cleared n r fill
  | 1, _ => .queryLeg cleared n r .leg0 r.leg0 fill
  | _, some l => .queryLeg cleared n r .leg1 l fill
  | _, none => .kindAlone

/-- The station that sent the request owns the record (R42). -/
def ownsRecord (rq : ImmediateRequest) (r : Record) : Bool := rq.port == r.ownerPort && rq.addr == r.ownerAddr

/-- The answer to a QUERY (R104, R42, R46, R191). Dropped with no effect when no non-reply place is free or the port is
not UP. -/
def answerQuery (rq : ImmediateRequest) (n : Nat) (clear : EventFlags) (part : Nat) (s : State) : State :=
  if !s.nonReplyFree rq.port then s
  else
    match s.resolve n with
    | none => answerNow rq .query .noStream (.stream n) s
    | some i =>
      match s.recordAt i with
      | none => s
      | some r =>
        if 2 < part ∨ (part = 2 ∧ r.leg1 = none) then answerNow rq .query .range (.failingField 3) s
        else
          let body := queryPart part (ownsRecord rq r && namesFlag clear) n r s.freeIndex
          let cleared :=
            if ownsRecord rq r then s.modRecord i fun r => { r with flags := clearFlags r.flags clear } else s
          answerNow rq .query .ok body { cleared with freeIndex := s.freeIndex + 3 }

/-- An installed window as READ_CALENDAR shows it (R68). DEDUCED: the beacon window, which has no leg, shows leg number 0
(assumption 20). -/
def State.installedEntry (s : State) (w : Window) : CalendarEntry :=
  match w.owner with
  | .beacon =>
    { offset := w.offset, length := w.length, rate := w.rate, phase := w.phase, stream := none, leg := .leg0,
      retiring := w.retiring, staged := false, state := none }
  | .leg i n =>
    { offset := w.offset, length := w.length, rate := w.rate, phase := w.phase, stream := some (s.streamOf i),
      leg := n, retiring := w.retiring, staged := false, state := (s.recordAt i).map Record.state }

/-- A staged leg as READ_CALENDAR shows it (R68): its record is PENDING. -/
def State.stagedEntry (s : State) (e : StagedLeg) : CalendarEntry :=
  { offset := e.offset, length := e.length, rate := e.rate, phase := e.phase, stream := some (s.streamOf e.slot),
    leg := e.leg, retiring := false, staged := true, state := (s.recordAt e.slot).map Record.state }

/-- The one list of a port that READ_CALENDAR indexes: installed windows, then staged legs (R191). -/
def State.calendarEntries (s : State) (p : Port) : List CalendarEntry :=
  (s.ports[p]).calendar.map s.installedEntry ++ (s.stagedFor p).map s.stagedEntry

/-- The snapshot of the calendar store for a port (R67, R68). -/
def State.calendarReading (s : State) (p : Port) (first : Nat) : CalendarReading where
  port := p
  hExp := s.time.hExp
  pendingH := s.store.pendingH
  freePlaces := s.freePlaces
  generation := s.store.generation
  cap := s.cap p
  peak := s.peakLoad p
  installed := (s.ports[p]).calendar.length
  staged := (s.stagedFor p).length
  first := first
  entries := ((s.calendarEntries p).drop first).take 2

/-- The port a request's byte names, when it is 0 to 7. -/
def portOfNat (n : Nat) : Option Port := if h : n < 8 then some ⟨n, h⟩ else none

/-- The answer to a READ_CALENDAR (R67, R105). -/
def answerReadCalendar (rq : ImmediateRequest) (port first : Nat) (s : State) : State :=
  if !s.nonReplyFree rq.port then s
  else
    match portOfNat port with
    | none => answerNow rq .readCalendar .range (.failingField 0) s
    | some p => answerNow rq .readCalendar .ok (.calendar (s.calendarReading p first)) s

/-- A port as READ_PORT shows it (R186). -/
def State.portReading (s : State) (p : Port) : PortReading where
  port := p
  receiveErrors := (s.ports[p]).receiveErrors
  strays := (s.ports[p]).strays
  openDrops := (s.ports[p]).openDrops
  link := (s.ports[p]).link
  policy := (s.ports[p]).policy
  cap := s.cap p

/-- The three counters set to 0 (R138, R186). -/
def PortState.clearCounters (ps : PortState) : PortState :=
  { ps with receiveErrors := 0, strays := 0, openDrops := 0 }

/-- The answer to a READ_PORT, with the counters cleared after reading when asked for (R186, R105). -/
def answerReadPort (rq : ImmediateRequest) (port : Nat) (clear : Bool) (s : State) : State :=
  if !s.nonReplyFree rq.port then s
  else
    match portOfNat port with
    | none => answerNow rq .readPort .range (.failingField 0) s
    | some p =>
      answerNow rq .readPort .ok (.portRead (s.portReading p))
        (if clear then s.modPort p PortState.clearCounters else s)

/-! ### Commands -/

/-- The request is a QUERY. -/
def isQuery (rq : ImmediateRequest) : Bool :=
  match rq.body with
  | .query .. => true
  | .readCalendar .. | .readPort .. => false

/-- The request is a READ_CALENDAR. -/
def isReadCalendar (rq : ImmediateRequest) : Bool :=
  match rq.body with
  | .readCalendar .. => true
  | .query .. | .readPort .. => false

/-- The request is a READ_PORT. -/
def isReadPort (rq : ImmediateRequest) : Bool :=
  match rq.body with
  | .readPort .. => true
  | .query .. | .readCalendar .. => false

/-- The immediate request taken: the first of its kind, and the state without it. -/
def State.withoutFirst (s : State) (f : ImmediateRequest → Bool) : State := { s with inbox := s.inbox.eraseP f }

/-- QUERY (R104, R18, R42, R46, R191). No effect when none has been handed on. -/
def execQuery (s : State) : Host.Outcome State Fault Refusal :=
  if s.resetAsserted then .next s
  else
    match s.inbox.find? isQuery with
    | some rq =>
      match rq.body with
      | .query n clear part => .next (settleEgress (answerQuery rq n clear part (s.withoutFirst isQuery)))
      | .readCalendar .. | .readPort .. => .next s
    | none => .next s

/-- READ_CALENDAR (R67, R68, R105, R191). No effect when none has been handed on. -/
def execReadCalendar (s : State) : Host.Outcome State Fault Refusal :=
  if s.resetAsserted then .next s
  else
    match s.inbox.find? isReadCalendar with
    | some rq =>
      match rq.body with
      | .readCalendar port first =>
        .next (settleEgress (answerReadCalendar rq port first (s.withoutFirst isReadCalendar)))
      | .query .. | .readPort .. => .next s
    | none => .next s

/-- READ_PORT (R186, R105, R138). No effect when none has been handed on. -/
def execReadPort (s : State) : Host.Outcome State Fault Refusal :=
  if s.resetAsserted then .next s
  else
    match s.inbox.find? isReadPort with
    | some rq =>
      match rq.body with
      | .readPort port clear => .next (settleEgress (answerReadPort rq port clear (s.withoutFirst isReadPort)))
      | .query .. | .readCalendar .. => .next s
    | none => .next s

end Sys2Proof.Machine
end

