-- ==== Sys2Proof/Machine/Administration.lean ====
section
/-! DEFINITION. The administrator's queued requests (chapter 10): the commands HOLD, RESUME, SET_PORT_POLICY, SET_TIMING,
SET_AGE, CLEAR_PORT and CLEAR_CELL. -/

namespace Sys2Proof.Machine

/-! ### The held flag (R179) -/

/-- The held flag is written and the sender answered OK with it (R179, R187). -/
def setHeld (m : MasterIndex) (held : Bool) (s : State) : State :=
  let t := leaveQueue s
  answerMaster m .ok (.heldFlag held) { t with admission := { t.admission with held := held } }

/-- HOLD (R179). No effect unless a HOLD is at the head of the queue and the unit is free. -/
def execHold (s : State) : Host.Outcome State Fault Refusal :=
  match s.headRequest with
  | some rq =>
    match rq.body with
    | .hold => .next (settleEgress (setHeld rq.master true s))
    | _ => .next s
  | none => .next s

/-- RESUME (R179). No effect unless a RESUME is at the head of the queue and the unit is free. -/
def execResume (s : State) : Host.Outcome State Fault Refusal :=
  match s.headRequest with
  | some rq =>
    match rq.body with
    | .resume => .next (settleEgress (setHeld rq.master false s))
    | _ => .next s
  | none => .next s

/-! ### Port policy (R180) -/

/-- The late policy a code names (R189). -/
def latePolicyOf (code : Nat) : Option LatePolicy :=
  match code with
  | 0 => some .hold
  | 1 => some .drop
  | _ => none

/-- The first field of a SET_PORT_POLICY out of range, in the order of the checks, by its offset in the body (R180,
R187). -/
def policyRange (port share jitter missLimit late quota : Nat) : Option Nat :=
  if 7 < port then some 0
  else if 48 < share then some 1
  else if 1008 < jitter ∨ jitter % 16 ≠ 0 then some 2
  else if missLimit = 0 ∨ 15 < missLimit then some 4
  else if latePolicyOf late = none then some 5
  else if 32 < quota then some 7
  else none

/-- All six policy fields of a port are written in one act (R180). -/
def writePolicy (p : Port) (new : Policy) (s : State) : State := s.modPort p fun ps => { ps with policy := new }

/-- The checks of SET_PORT_POLICY in order, and its effect (R180, R187). -/
def takeSetPortPolicy (m : MasterIndex) (port share jitter missLimit late : Nat) (masterCapable : Bool) (quota : Nat)
    (s : State) : State :=
  let t := leaveQueue s
  if !s.admission.held then answerMaster m .notHeld .kindAlone t
  else
    match policyRange port share jitter missLimit late quota with
    | some field => answerMaster m .range (.failingField field) t
    | none =>
      match portOfNat port, latePolicyOf late with
      | some p, some late =>
        if capOf s.cycleTicks share < s.peakLoad p then
          answerMaster m .inUse (.policy port (capOf s.cycleTicks share) (s.peakLoad p)) t
        else
          answerMaster m .ok (.policy port (capOf s.cycleTicks share) (s.peakLoad p))
            (writePolicy p
              { share := share, jitter := jitter, missLimit := missLimit, late := late,
                masterCapable := masterCapable, quota := quota } t)
      | _, _ => t

/-- SET_PORT_POLICY (R180, R181). No effect unless one is at the head of the queue and the unit is free. -/
def execSetPortPolicy (s : State) : Host.Outcome State Fault Refusal :=
  match s.headRequest with
  | some rq =>
    match rq.body with
    | .setPortPolicy port share jitter missLimit late masterCapable quota =>
      .next (settleEgress (takeSetPortPolicy rq.master port share jitter missLimit late masterCapable quota s))
    | _ => .next s
  | none => .next s

/-! ### Timing and age (R182, R183) -/

/-- The number of non-FREE records. -/
def State.recordCount (s : State) : Nat := ((List.finRange 128).filter fun i => (s.recordAt i).isSome).length

/-- The checks of SET_TIMING in order, and its effect (R182, R69, R187). -/
def takeSetTiming (m : MasterIndex) (h : Nat) (s : State) : State :=
  let t := leaveQueue s
  if !s.admission.held then answerMaster m .notHeld .kindAlone t
  else if 4 < h then answerMaster m .range (.failingField 0) t
  else if s.recordCount ≠ 0 ∨ s.store.changeList ≠ [] then
    answerMaster m .inUse (.timingInUse s.recordCount s.store.changeList.length) t
  else deferToSwitch m .timing { t with store := { t.store with pendingH := some h } }

/-- SET_TIMING (R182). No effect unless one is at the head of the queue and the unit is free. -/
def execSetTiming (s : State) : Host.Outcome State Fault Refusal :=
  match s.headRequest with
  | some rq =>
    match rq.body with
    | .setTiming h => .next (settleEgress (takeSetTiming rq.master h s))
    | _ => .next s
  | none => .next s

/-- The check of SET_AGE and its effect (R183, R173, R187). -/
def takeSetAge (m : MasterIndex) (seconds : Nat) (s : State) : State :=
  let t := leaveQueue s
  if seconds < 10 ∨ 1000 < seconds then answerMaster m .range (.failingField 0) t
  else
    answerMaster m .ok (.age seconds (sweepPeriod s.straps.cyc seconds))
      { t with ageing := { agePeriod := seconds, sweepCount := 0 } }

/-- SET_AGE (R183). No effect unless one is at the head of the queue and the unit is free. -/
def execSetAge (s : State) : Host.Outcome State Fault Refusal :=
  match s.headRequest with
  | some rq =>
    match rq.body with
    | .setAge seconds => .next (settleEgress (takeSetAge rq.master seconds s))
    | _ => .next s
  | none => .next s

/-! ### Clearing (R184, R185, R38, R70) -/

/-- The number of records in slot order for which `f` holds. -/
def State.countRecords (s : State) (f : Record → Bool) : Nat :=
  ((List.finRange 128).filter fun i => (s.recordAt i).any f).length

/-- A clear of the records for which `f` holds: PENDING ones are cancelled, the others end; the sender awaits CLEARED
with the two counts as they are at execution (R38, R184, R187). -/
def clearRecords (m : MasterIndex) (target : Option Port) (why : EndReason) (f : Record → Bool) (s : State) : State :=
  deferToSwitch m
    (.cleared target (s.countRecords fun r => f r && r.state == .pending)
      (s.countRecords fun r => f r && (r.state == .active || r.state == .dormant || r.state == .suspended)))
    (endAll f why (leaveQueue s))

/-- The check of CLEAR_PORT and its effect (R184). -/
def takeClearPort (m : MasterIndex) (port : Nat) (s : State) : State :=
  match portOfNat port with
  | none => answerMaster m .range (.failingField 0) (leaveQueue s)
  | some q => clearRecords m (some q) .portCleared (fun r => r.onPort q) s

/-- CLEAR_PORT (R184). No effect unless one is at the head of the queue and the unit is free. -/
def execClearPort (s : State) : Host.Outcome State Fault Refusal :=
  match s.headRequest with
  | some rq =>
    match rq.body with
    | .clearPort port => .next (settleEgress (takeClearPort rq.master port s))
    | _ => .next s
  | none => .next s

/-- CLEAR_CELL (R185). No effect unless one is at the head of the queue and the unit is free. -/
def execClearCell (s : State) : Host.Outcome State Fault Refusal :=
  match s.headRequest with
  | some rq =>
    match rq.body with
    | .clearCell => .next (settleEgress (clearRecords rq.master none .cellCleared (fun _ => true) s))
    | _ => .next s
  | none => .next s

end Sys2Proof.Machine
end

