-- ==== Sys2Proof/Machine/Ingress.lean ====
section
/-! DEFINITION. The ingress classifiers (chapter 06): the classes of a frame, the stream check, the hold queues, and the
command FRAME_RECEIVED. -/

namespace Sys2Proof.Machine

/-- The classes of R122. -/
inductive FrameClass where
  | error
  | control
  | motion
  | openFrame
deriving DecidableEq, Repr

/-- The class of a frame, by the rows of R122 in order. -/
def State.classify (s : State) (f : Frame) : FrameClass :=
  if isErrorFrame f then .error
  else if etherTypeOf f = controlType ∧ (destinationOf f = s.deviceAddr ∨ destinationOf f = broadcast) then .control
  else if etherTypeOf f = motionType then .motion
  else .openFrame

/-- The leg of a record that enters at a port (R126 step 4). -/
def Record.legEntering (r : Record) (p : Port) : Option LegNo :=
  if r.leg0.ingress = p then some .leg0
  else
    match r.leg1 with
    | some l => if l.ingress = p then some .leg1 else none
    | none => none

/-- The stream check: the slot and leg that accept the frame; none for a stray (R126). -/
def State.streamCheck (s : State) (p : Port) (f : Frame) : Option (Slot × LegNo) :=
  match s.resolve (streamFieldOf f) with
  | none => none
  | some i =>
    match s.recordAt i with
    | none => none
    | some r =>
      if r.state = .active ∨ r.state = .dormant then (r.legEntering p).map fun n => (i, n) else none

/-- A frame longer than its leg's declared frame size (R128). -/
def State.oversize (s : State) (i : Slot) (n : LegNo) (f : Frame) : Bool :=
  match s.recordAt i with
  | none => false
  | some r =>
    match r.leg n with
    | none => false
    | some l => l.frameSize < f.length

/-- The report of an oversize frame (R40). -/
def countOversize (r : Record) : Record :=
  { r with flags := { r.flags with oversize := true }, droppedFrames := satSucc r.droppedFrames }

/-- The report of an overflow (R40). -/
def countOverflow (r : Record) : Record :=
  { r with flags := { r.flags with overflow := true }, droppedFrames := satSucc r.droppedFrames }

/-- An accepted frame: dropped as oversize, appended to its leg's hold queue with its ready time, or dropped as an
overflow (R128, R129, R131). -/
def acceptMotion (i : Slot) (n : LegNo) (f : Frame) (s : State) : State :=
  if s.oversize i n f then s.modRecord i countOversize
  else if ((s.slots[i]).queue n).length < 4 then
    s.modSlot i fun c =>
      c.setQueue n (c.queue n ++ [{ frame := f, readyAt := s.time.now + forwardingLead, mark := .waiting }])
  else s.modRecord i countOverflow

/-- A motion frame: accepted by its leg, or a stray of its port (R126, R127). -/
def takeMotion (p : Port) (f : Frame) (s : State) : State :=
  match s.streamCheck p f with
  | some (i, n) => acceptMotion i n f s
  | none => s.modPort p fun ps => { ps with strays := satSucc ps.strays }

/-- A frame taken by the classifier of port `p` (R122 to R126): learning comes before forwarding (R168) and, here,
before the conversation unit takes a control frame (assumption 14). -/
def takeFrame (p : Port) (f : Frame) (s : State) : State :=
  match s.classify f with
  | .error => s.modPort p fun ps => { ps with receiveErrors := satSucc ps.receiveErrors }
  | .control => takeControl p f (learn p (sourceOf f) s)
  | .motion => takeMotion p f s
  | .openFrame => forward p f (learn p (sourceOf f) s)

/-- FRAME_RECEIVED (R122 to R129, R100 to R106, R168, R169, R176, R150). A frame whose last byte arrives on a port that
is not UP is discarded unclassified. -/
def execFrameReceived (p : Port) (f : Frame) (s : State) : Host.Outcome State Fault Refusal :=
  if s.resetAsserted then .next s
  else if s.portUp p then .next (settleEgress (takeFrame p f s))
  else .next s

end Sys2Proof.Machine
end

