-- ==== Sys2Proof/Machine/Links.lean ====
section
/-! DEFINITION. The link monitor (chapter 08): the kinds of a sample, the port link state machine, and what a departure
and an arrival do. -/

namespace Sys2Proof.Machine

/-- The kinds of a sample (R156). -/
inductive SampleKind where
  | fault
  | good
  | bad
deriving DecidableEq, Repr

/-- The kind of a sample of the three lines (R156). -/
def sampleKind (l : PhyLines) : SampleKind :=
  if l.fault then .fault else if l.link then .good else .bad

/-- SPEED asserted is 1000 Mb/s, negated 100 Mb/s (R156). -/
def lineSpeed (l : PhyLines) : Speed := if l.speed then .mb1000 else .mb100

/-- The port link state machine: the state after a sample of the given kind, with the speed its SPEED line shows
(R158, R159). -/
def LinkState.next (st : LinkState) (k : SampleKind) (v : Speed) : LinkState :=
  match k with
  | .fault => .faulted
  | .good =>
    match st with
    | .down => .comingUp 1
    | .comingUp n => if n < 7 then .comingUp (n + 1) else .up v
    | .up u => .up u
    | .goingDown u => .up u
    | .faulted => .comingUp 1
  | .bad =>
    match st with
    | .down => .down
    | .comingUp _ => .down
    | .up u => .goingDown u
    | .goingDown _ => .down
    | .faulted => .down

/-- Every port's link state steps on its own sample, before any report is taken (R158, R160). -/
def stepLinks (lines : Vector PhyLines 8) (s : State) : State :=
  overPorts (fun p s => s.modPort p fun ps =>
    { ps with link := ps.link.next (sampleKind lines[p]) (lineSpeed lines[p]) }) s

/-- The masters of a departed port in REPLY_DUE go to IDLE (R118). -/
def portDepartsFromMasters (p : Port) (s : State) : State :=
  overMasters (fun m s =>
    match s.masters[m] with
    | some e => if e.port = p then replyGone m s else s
    | none => s) s

/-- A departure as the four blocks take it (R160): records, egress scheduler, masters, station table. -/
def portDeparts (p : Port) (s : State) : State :=
  portDepartsFromStations p (portDepartsFromMasters p (egressLoss p (portDepartsFromRecords p s)))

/-- The report of one port, from its link state before the sample (R160). -/
def linkReport (before : Vector PortState 8) (p : Port) (s : State) : State :=
  if (before[p]).link.speed.isSome then
    if s.portUp p then s else portDeparts p s
  else if s.portUp p then portArrivesAtRecords p s
  else s

/-- The sample of a base-cycle start: all link states step, then each port's report is taken, in port order
(R156 to R162; assumption 16). -/
def sampleLinks (lines : Vector PhyLines 8) (s : State) : State :=
  overPorts (linkReport s.ports) (stepLinks lines { s with lines := lines })

end Sys2Proof.Machine
end

