-- ==== Sys2Proof/Machine/Switch.lean ====
section
/-! DEFINITION. The calendar switch and what follows it at a hypercycle boundary: installation, freeing, the answers of
R109, and the capture of the beacon (chapters 01, 03, 05). -/

namespace Sys2Proof.Machine

/-- One port calendar at the switch: retiring windows leave, staged legs are inserted in change-list order, and a
pending H becomes the beacon window's rate (R61 steps 1 to 3). -/
def switchCalendar (staged : List StagedLeg) (pendingH : Option Nat) (cal : List Window) : List Window :=
  let joined := staged.foldl (fun c e => insertWindow e.window c) (cal.filter fun w => !w.retiring)
  match pendingH with
  | none => joined
  | some h => joined.map fun w => if w.owner = .beacon then { w with rate := h } else w

/-- The H that the switch leaves (R6). -/
def State.switchH (s : State) : Nat := s.store.pendingH.getD s.time.hExp

/-- Some port calendar holds a retiring window. -/
def State.anyRetiring (s : State) : Bool :=
  (List.finRange 8).any fun p => (s.ports[p]).calendar.any Window.retiring

/-- The switch removes or installs a window or changes H (R63). -/
def State.switchChanges (s : State) : Bool :=
  s.anyRetiring || !s.store.changeList.isEmpty || s.switchH != s.time.hExp

/-- The calendar switch as one act (R61), with G recomputed from the calendars it leaves (R149) and the waiting claim,
if any, to be taken up again (R75). -/
def calendarSwitch (s : State) : State :=
  let switched := overPorts (fun p t => t.modPort p fun ps =>
    { ps with
      calendar := switchCalendar (s.stagedFor p) s.store.pendingH ps.calendar
      longestOpen := longestStretch s.cycleTicks s.switchH
        (switchCalendar (s.stagedFor p) s.store.pendingH ps.calendar) }) s
  { switched with
    time := { s.time with hExp := s.switchH }
    store :=
      { changeList := []
        generation := if s.switchChanges then s.store.generation + 1 else s.store.generation
        pendingH := none }
    admission :=
      { s.admission with
        waiting := match s.admission.waiting with
          | .none => .none
          | .waiting => .takeUp
          | .takeUp => .takeUp } }

/-- The slots whose records are ENDING, in ascending order (R39, R109). -/
def State.endingSlots (s : State) : List Slot :=
  (List.finRange 128).filter fun i =>
    match s.recordAt i with
    | some r => r.state == .ending
    | none => false

/-- The slots whose legs the switch installs, in the order in which their first legs stand in the change list (R62). -/
def State.installingSlots (s : State) : List Slot :=
  s.store.changeList.filterMap fun e => if e.leg = .leg0 then some e.slot else none

/-- The answer owed at the switch to one administrator (R109 item 3, R187). -/
def answerDeferred (m : MasterIndex) (s : State) : State :=
  match s.masters[m] with
  | none => s
  | some e =>
    match e.awaited with
    | some (.releasedAtSwitch n) => answerMaster m .released (.released n s.store.generation) s
    | some (.cleared t c k) => answerMaster m .cleared (.cleared t c k s.store.generation) s
    | some .timing => answerMaster m .ok (.timing s.time.hExp s.store.generation) s
    | some (.grant _) => s
    | some (.release _) => s
    | none => s

/-- The switch and what the blocks do with its outcome: heads tested against the new G (R149), installations with
GRANTED, freed records with RELEASED and ENDED, then the other answers (R62, R109). Their notices carry the number of the hypercycle that opens
(assumption 18). -/
def takeSwitch (s : State) : State :=
  let s1 := overPorts testHeads (calendarSwitch s)
  let s2 := s.installingSlots.foldl (fun t i => installRecord i t) s1
  let s3 := s.endingSlots.foldl (fun t i => freeEnding i t) s2
  let s4 := s3.switchAnswers.foldl (fun t m => answerDeferred m t) s3
  { s4 with switchAnswers := [] }

/-- The content of the beacons of the hypercycle, captured after the switch (R15). -/
def captureBeacon (s : State) : State :=
  { s with
    beacon := some
      { unit := s.straps.unit, hypercycle := s.time.hypercycle, generation := s.store.generation,
        cyc := s.straps.cyc, hExp := s.time.hExp, held := s.admission.held,
        queueLength := s.admission.queue.length } }

end Sys2Proof.Machine
end

