-- ==== Sys2Proof/Machine/TimeBase.lean ====
section
/-! DEFINITION. The time base (chapter 01) and the commands it raises: reset, base-cycle start, the end of the settle
period, the hypercycle boundary and the sweep. -/

namespace Sys2Proof.Machine

/-! ### The chain -/

/-- The tick counter stands at L − 1 with nothing of this base cycle's start or boundary left to take, so that the next
period of the clock begins a base cycle. -/
def State.atCycleEnd (s : State) : Bool :=
  s.time.tick + 1 == s.cycleTicks && !s.time.startDue && s.time.boundaryDue == .none

/-- The base cycle ahead is base cycle 0 of a new hypercycle: b stands at 2^H − 1 (R4). -/
def State.wraps (s : State) : Bool := 2 ^ s.time.hExp ≤ s.time.b + 1

/-- The chain at a base-cycle start after the first (R1, R4, R8, R173): the tick counter returns to 0; the settle counter
falls, or b advances or returns to 0; the sweep count rises; and the events of this instant are raised. -/
def enterBaseCycle (s : State) : State :=
  { s with
    time :=
      { s.time with
        now := s.time.now + 1
        tick := 0
        settle := s.time.settle - 1
        b := if s.settling then 0 else if s.wraps then 0 else s.time.b + 1
        startDue := true
        boundaryDue :=
          if s.settling then (if s.time.settle = 1 then .endOfSettle else .none)
          else if s.wraps then .hypercycle else .none }
    ageing := { s.ageing with sweepCount := s.ageing.sweepCount + 1 } }

/-! ### Reset -/

/-- What the assertion of RESET does to a port: its frame is cut, its instance ends, its link state is held DOWN
(R3, R16, R156). -/
def PortState.cut (ps : PortState) : PortState := { ps with tx := .free, current := .none, link := .down }

/-- RESET_ASSERTED (R16, R3, R95, R155, R156): the time base stops, frames are cut, instances, waits and requests in hand
end, and the link states are held at their reset value. Every other piece of state takes its reset value at the
release. DESIGN CHOICE: what is left until then stands (assumption 5). -/
def execResetAsserted (s : State) : Host.Outcome State Fault Refusal :=
  let t := overPorts (fun p s => s.modPort p PortState.cut) s
  .next
    { t with
      resetAsserted := true
      time := { s.time with startDue := false, boundaryDue := .none }
      admission := { s.admission with waiting := .none }
      inbox := [] }

/-- RESET_RELEASED (R1 to R3): every reset value, with the straps sampled now; the base-cycle start of the release is
raised. DESIGN CHOICE: in any state, whether or not an assertion came before (assumption 6). -/
def execResetReleased (straps : Straps) (s : State) : Host.Outcome State Fault Refusal :=
  .next (State.resetWith straps s.lines s.pending)

/-! ### Edges of the chain -/

/-- The state in which the base-cycle start can be taken: the present one when the start has been raised, or the chain's
next when the base cycle ends here. DESIGN CHOICE: a command so taken at tick L − 1 passes over whatever is due at that
tick and not yet taken, which is then taken late (assumption 37). -/
def State.startReady (s : State) : State := if s.atCycleEnd then enterBaseCycle s else s

/-- BASE_CYCLE_START (R1, R4, R8, R156 to R164): the chain advances and every link is sampled, once per base-cycle start.
Other events of that tick come before the sample when they are taken between the passing of the tick, which raises the
start, and this command (R163; assumption 10). DESIGN CHOICE: the notices of a sample taken before the boundary of its
tick carry the number of the hypercycle that closes (assumption 39). No effect where the time base raises none (assumption 4). -/
def execBaseCycleStart (lines : Vector PhyLines 8) (s : State) : Host.Outcome State Fault Refusal :=
  if s.resetAsserted then .next s
  else
    let t := s.startReady
    if t.time.startDue then
      .next (settleEgress (sampleLinks lines { t with time := { t.time with startDue := false } }))
    else .next s

/-- END_OF_SETTLE_PERIOD (R10): the settle counter has reached 0; b and the hypercycle number are 0; the switch and the
beacon capture are taken. -/
def execEndOfSettlePeriod (s : State) : Host.Outcome State Fault Refusal :=
  if s.resetAsserted then .next s
  else
    let t := s.startReady
    if t.time.boundaryDue = .endOfSettle then
      .next (settleEgress (captureBeacon (takeSwitch
        { t with time := { t.time with boundaryDue := .none, b := 0, hypercycle := 0 } })))
    else .next s

/-- HYPERCYCLE_BOUNDARY (R4, R5, R61, R15): b has returned to 0; the hypercycle number increments; the switch and the
beacon capture are taken. -/
def execHypercycleBoundary (s : State) : Host.Outcome State Fault Refusal :=
  if s.resetAsserted then .next s
  else
    let t := s.startReady
    if t.time.boundaryDue = .hypercycle then
      .next (settleEgress (captureBeacon (takeSwitch
        { t with time := { t.time with boundaryDue := .none, hypercycle := t.time.hypercycle + 1 } })))
    else .next s

/-- The sweep count has reached the sweep period (R173). -/
def State.sweepDue (s : State) : Bool := sweepPeriod s.straps.cyc s.ageing.agePeriod ≤ s.ageing.sweepCount

/-- SWEEP (R173, R174). No effect before the count has reached the period. -/
def execSweep (s : State) : Host.Outcome State Fault Refusal :=
  if s.resetAsserted then .next s
  else if s.sweepDue then .next (settleEgress (sweepTable s))
  else .next s

end Sys2Proof.Machine
end

