-- ==== Sys2Proof/Machine/Windows.lean ====
section
/-! DEFINITION. Window openings and ends, readiness of motion frames, and ends of transmissions: the commands
WINDOW_OPENING, WINDOW_END, FRAME_READY and FRAME_TRANSMIT_END (chapters 06 and 07). -/

namespace Sys2Proof.Machine

/-! ### Ends of instances -/

/-- The end of the port's current instance has been reached. -/
def instanceEnded (p : Port) (s : State) : Bool :=
  match (s.ports[p]).current with
  | .none => false
  | .beacon t => t ≤ s.time.now
  | .window w => w.endAt ≤ s.time.now

/-- The end of the current instance is taken: nothing is reported for the beacon (R141); for a reservation instance
the late policy is applied if it opened live (R135) and the report is handed to the table (R145). DEDUCED: the policy
comes first, as R31 speaks of frames that stayed queued under HOLD (assumption 13). -/
def endInstance (p : Port) (s : State) : State :=
  let closed := s.modPort p fun ps => { ps with current := .none }
  match (s.ports[p]).current with
  | .none => s
  | .beacon _ => closed
  | .window w =>
    if w.cls = .lent then windowReport w.slot w.leg false (0 < w.sent) closed
    else windowReport w.slot w.leg true (0 < w.sent) (applyLatePolicy p w.slot w.leg closed)

/-- WINDOW_END (R145, R135, R25 to R28). No effect before the end of a current instance is reached. -/
def execWindowEnd (p : Port) (s : State) : Host.Outcome State Fault Refusal :=
  if s.resetAsserted then .next s
  else if instanceEnded p s then .next (settleEgress (endInstance p s))
  else .next s

/-! ### Openings -/

/-- The opening of window `w` at this tick has already been taken: its instance is current. -/
def openingTaken (c : CurrentInstance) (w : Window) (now : Nat) : Bool :=
  match c with
  | .none => false
  | .beacon t => w.owner == .beacon && t == now + w.length
  | .window i => w.owner == .leg i.slot i.leg && i.endAt == now + w.length

/-- The time base raises the opening of `w` on port `p` at this tick (R11, R12): edges have begun, the boundary of this
tick has been taken, `w` occupies b and opens here, and the event has not been taken. -/
def State.opensNow (s : State) (p : Port) (w : Window) : Bool :=
  !s.settling && s.time.boundaryDue == .none && w.inBaseCycle s.time.b && w.offset == s.time.tick
    && !openingTaken (s.ports[p]).current w s.time.now

/-- The window of the owner named whose opening the time base raises now. -/
def State.openingOf (s : State) (p : Port) (o : WindowOwner) : Option Window :=
  (s.ports[p]).calendar.find? fun w => w.owner == o && s.opensNow p w

/-- What is due on the port at this tick before an opening is taken: the end of its transmission, since the transmitter
is FREE at the tick its wire time ends (R139), and the end of the instance that closes here (R12, R145; assumption 25). -/
def clearForOpening (p : Port) (s : State) : State :=
  let s1 := if transmissionEnded p s then endTransmission p s else s
  if instanceEnded p s1 then endInstance p s1 else s1

/-- The beacon instance becomes current and the beacon is started (R141). -/
def openBeacon (p : Port) (w : Window) (s : State) : State :=
  startBeacon p (s.modPort p fun ps => { ps with current := .beacon (s.time.now + w.length) })

/-- A reservation instance of the given class becomes current, with no frame sent (R142). -/
def beginInstance (p : Port) (w : Window) (i : Slot) (n : LegNo) (cls : WindowClass) (s : State) : State :=
  s.modPort p fun ps =>
    { ps with
      current := .window
        { slot := i, leg := n, b := s.time.b, cls := cls, sent := 0, endAt := s.time.now + w.length } }

/-- The opening of a reservation instance, classed by R142: live for an ACTIVE record, or for a DORMANT record with the
leg in its wake set, which wakes (R30), each with the transmitter FREE; otherwise lent. DEDUCED: any frame on the
transmitter displaces (assumption 24). -/
def openReservation (p : Port) (w : Window) (i : Slot) (n : LegNo) (s : State) : State :=
  match s.recordAt i with
  | none => beginInstance p w i n .lent s
  | some r =>
    if (s.ports[p]).tx ≠ .free then beginInstance p w i n .lent s
    else if r.state = .active then beginInstance p w i n .live s
    else if r.state = .dormant ∧ r.wake.has n then beginInstance p w i n .live (wakeRecord i s)
    else beginInstance p w i n .lent s

/-- The opening of a window of port `p` is taken. -/
def openWindow (p : Port) (w : Window) (s : State) : State :=
  let t := clearForOpening p s
  match w.owner with
  | .beacon => openBeacon p w t
  | .leg i n => openReservation p w i n t

/-- WINDOW_OPENING (R11, R12, R141, R142, R30, R153). No effect where the time base raises no such opening. -/
def execWindowOpening (p : Port) (o : WindowOwner) (s : State) : Host.Outcome State Fault Refusal :=
  if s.resetAsserted then .next s
  else
    match s.openingOf p o with
    | some w => .next (settleEgress (openWindow p w s))
    | none => .next s

/-! ### Readiness -/

/-- The oldest waiting frame of a hold queue has reached its ready time (R131). -/
def frameDue (q : List HoldEntry) (now : Nat) : Bool :=
  match q.find? fun e => e.mark == .waiting with
  | some e => e.readyAt ≤ now
  | none => false

/-- The oldest waiting frame takes its mark (R131). -/
def markOldest (m : Mark) : List HoldEntry → List HoldEntry
  | [] => []
  | e :: es => if e.mark = .waiting then { e with mark := m } :: es else e :: markOldest m es

/-- An instance of the leg's window that opened live is open on the port (R131). DEDUCED: also after its record gave
it up (assumption 33). -/
def openedLive (c : CurrentInstance) (i : Slot) (n : LegNo) : Bool :=
  match c with
  | .window w => w.slot == i && w.leg == n && w.cls != .lent
  | .beacon _ => false
  | .none => false

/-- The smallest lead after a lead is measured: it takes the lead when absent or greater (R133). -/
def lowerLead (old : Option Nat) (lead : Nat) : Option Nat :=
  match old with
  | none => some lead
  | some x => some (min x lead)

/-- The lead of a frame of leg `l` ready now: the distance to the leg's next opening (R133, R13). -/
def State.leadOf (s : State) (r : Record) (l : Leg) : Nat :=
  distanceTo s.cycleTicks r.rate r.phase l.offset s.time.b s.time.tick

/-- The report of a late frame (R40, R134). -/
def countLate (r : Record) : Record :=
  { r with flags := { r.flags with late := true }, lateFrames := satSucc r.lateFrames }

/-- The oldest waiting frame of leg `n` becomes ready: late inside an instance that opened live, otherwise on time with
its lead measured; and a DORMANT record's leg joins the wake set (R131, R133, R134, R29). -/
def becomeReady (i : Slot) (n : LegNo) (s : State) : State :=
  match s.recordAt i with
  | none => s
  | some r =>
    match r.leg n with
    | none => s
    | some l =>
      let isLate := openedLive (s.ports[l.egress]).current i n
      let marked := s.modSlot i fun c =>
        c.setQueue n (markOldest (if isLate then .late else .ready) (c.queue n))
      let judged :=
        if isLate then marked.modRecord i countLate
        else marked.modRecord i fun r =>
          r.mapLeg n fun l => { l with smallestLead := lowerLead l.smallestLead (s.leadOf r l) }
      if r.state = .dormant then judged.modRecord i fun r => { r with wake := r.wake.add n } else judged

/-- FRAME_READY (R131 to R134, R29, R136). No effect before the oldest waiting frame's ready time. -/
def execFrameReady (i : Slot) (n : LegNo) (s : State) : Host.Outcome State Fault Refusal :=
  if s.resetAsserted then .next s
  else if frameDue ((s.slots[i]).queue n) s.time.now then .next (settleEgress (becomeReady i n s))
  else .next s

/-! ### Ends of transmissions -/

/-- FRAME_TRANSMIT_END (R139, R113, R143, R147, R151). No effect before the wire time of a frame has ended. -/
def execFrameTransmitEnd (p : Port) (s : State) : Host.Outcome State Fault Refusal :=
  if s.resetAsserted then .next s
  else if transmissionEnded p s then .next (settleEgress (endTransmission p s))
  else .next s

end Sys2Proof.Machine
end

