-- ==== Sys2Proof/Machine/Clock.lean ====
section
/-! DEFINITION. What the device does of itself while no command waits: the event that is due at the present tick, or the
passing of one tick (R1; assumption 3). -/

namespace Sys2Proof.Machine

/-- A port whose frame's wire time has ended (R139). -/
def State.dueTransmitEnd (s : State) : Option Instr :=
  ((List.finRange 8).find? fun p => transmissionEnded p s).map Instr.frameTransmitEnd

/-- A port whose current instance has reached its end (R11). -/
def State.dueWindowEnd (s : State) : Option Instr :=
  ((List.finRange 8).find? fun p => instanceEnded p s).map Instr.windowEnd

/-- A sweep whose count has reached the sweep period (R173). -/
def State.dueSweep (s : State) : Option Instr := if s.sweepDue then some .sweep else none

/-- A boundary that has been reached (R4, R10). -/
def State.dueBoundary (s : State) : Option Instr :=
  match s.time.boundaryDue with
  | .none => none
  | .endOfSettle => some .endOfSettlePeriod
  | .hypercycle => some .hypercycleBoundary

/-- A base-cycle start that has been raised, with the lines as last sampled (R1). -/
def State.dueStart (s : State) : Option Instr := if s.time.startDue then some (.baseCycleStart s.lines) else none

/-- A leg whose oldest waiting frame has reached its ready time (R131). -/
def State.dueReady (s : State) : Option Instr :=
  (List.finRange 128).findSome? fun i =>
    if frameDue (s.slots[i]).queue0 s.time.now then some (.frameReady i .leg0)
    else if frameDue (s.slots[i]).queue1 s.time.now then some (.frameReady i .leg1)
    else none

/-- A window that opens at this tick (R11). -/
def State.dueOpening (s : State) : Option Instr :=
  (List.finRange 8).findSome? fun p =>
    ((s.ports[p]).calendar.find? fun w => s.opensNow p w).map fun w => .windowOpening p w.owner

/-- The command of an immediate request (R104, R105). -/
def ImmediateBody.command : ImmediateBody → Instr
  | .query .. => .query
  | .readCalendar .. => .readCalendar
  | .readPort .. => .readPort

/-- An immediate request that has been handed on. -/
def State.dueImmediate (s : State) : Option Instr := s.inbox.head?.map fun rq => rq.body.command

/-- The command of a queued request (R73). -/
def QueuedBody.command : QueuedBody → Instr
  | .claim _ => .claim
  | .release _ => .release
  | .hold => .hold
  | .resume => .resume
  | .setPortPolicy .. => .setPortPolicy
  | .setTiming _ => .setTiming
  | .setAge _ => .setAge
  | .clearPort _ => .clearPort
  | .clearCell => .clearCell

/-- A request at the head of the queue of a free admission unit, or a waiting claim to be taken up (R73, R75). -/
def State.dueRequest (s : State) : Option Instr :=
  match s.admission.waiting with
  | .takeUp => if s.admission.queue.isEmpty then none else some .takeUpWaitingClaim
  | .waiting | .none => s.headRequest.map fun rq => rq.body.command

/-- The event that is due at the present tick and is taken first. DESIGN CHOICE: the order among those due together,
each order of which the spec allows (assumption 3). -/
def State.dueEvent (s : State) : Option Instr :=
  [s.dueTransmitEnd, s.dueWindowEnd, s.dueSweep, s.dueBoundary, s.dueStart, s.dueReady, s.dueOpening, s.dueImmediate,
    s.dueRequest].findSome? id

/-- The clock one period on: into the next base cycle, whose start and boundary are then raised and to be taken, or to
the next tick of this one (R1, R4). -/
def advanceClock (s : State) : State :=
  if s.atCycleEnd then enterBaseCycle s
  else { s with time := { s.time with now := s.time.now + 1, tick := s.time.tick + 1 } }

/-- One period of the reference clock (R1), after which the schedulers apply their choice again (assumption 28). -/
def tickPasses (s : State) : State := settleEgress (advanceClock s)

end Sys2Proof.Machine
end

