-- ==== Sys2Proof/Machine/Dispatch.lean ====
section
/-! DEFINITION. The dispatch: one arm per command, each one call of its meaning. -/

namespace Sys2Proof.Machine

/-- The effect of a command on everything but the queue of commands. -/
def exec (i : Instr) (s : State) : Host.Outcome State Fault Refusal :=
  match i with
  | .resetAsserted => Sys2Proof.Machine.execResetAsserted s
  | .resetReleased straps => Sys2Proof.Machine.execResetReleased straps s
  | .baseCycleStart lines => Sys2Proof.Machine.execBaseCycleStart lines s
  | .endOfSettlePeriod => Sys2Proof.Machine.execEndOfSettlePeriod s
  | .hypercycleBoundary => Sys2Proof.Machine.execHypercycleBoundary s
  | .sweep => Sys2Proof.Machine.execSweep s
  | .windowOpening port owner => Sys2Proof.Machine.execWindowOpening port owner s
  | .windowEnd port => Sys2Proof.Machine.execWindowEnd port s
  | .frameReceived port frame => Sys2Proof.Machine.execFrameReceived port frame s
  | .query => Sys2Proof.Machine.execQuery s
  | .readCalendar => Sys2Proof.Machine.execReadCalendar s
  | .readPort => Sys2Proof.Machine.execReadPort s
  | .claim => Sys2Proof.Machine.execClaim s
  | .takeUpWaitingClaim => Sys2Proof.Machine.execTakeUpWaitingClaim s
  | .release => Sys2Proof.Machine.execRelease s
  | .hold => Sys2Proof.Machine.execHold s
  | .resume => Sys2Proof.Machine.execResume s
  | .setPortPolicy => Sys2Proof.Machine.execSetPortPolicy s
  | .setTiming => Sys2Proof.Machine.execSetTiming s
  | .setAge => Sys2Proof.Machine.execSetAge s
  | .clearPort => Sys2Proof.Machine.execClearPort s
  | .clearCell => Sys2Proof.Machine.execClearCell s
  | .frameReady slot leg => Sys2Proof.Machine.execFrameReady slot leg s
  | .frameTransmitEnd port => Sys2Proof.Machine.execFrameTransmitEnd port s

end Sys2Proof.Machine
end

