-- ==== Sys2Proof/Machine/Step.lean ====
section
/-! DEFINITION. One step of the machine, and the placing of a command at the front of its queue. -/

namespace Sys2Proof.Machine

/-- What the machine does with no command waiting: nothing while RESET is asserted (R16); otherwise the event that is
due, or one tick passes (assumption 3). -/
def idleStep (s : State) : Host.Outcome State Fault Refusal :=
  if s.resetAsserted then .next s
  else
    match s.dueEvent with
    | some c => exec c s
    | none => .next (tickPasses s)

/-- One step: the command at the front of the queue is executed with the rest of the queue. -/
def step (s : State) : Host.Outcome State Fault Refusal :=
  match s.pending with
  | c :: rest => exec c { s with pending := rest }
  | [] => idleStep s

/-- `s` with the command that the word spells at the front of its queue; `s` itself where the word spells none, which
is every word (R189 spells requests in frames, not in words; assumption 34). -/
def State.withFetchWord (s : State) (nbits w : Nat) : State :=
  match decodeTableWord nbits w with
  | some c => { s with pending := c :: s.pending }
  | none => s

end Sys2Proof.Machine
end

