-- ==== Sys2Proof/Safety.lean ====
section
/-! DEFINITION. What a sound state is, in the terms that statements use: the time base in its ranges, the calendars as
R48 and R50 give them, the three laws of R55, the limits of the queues, and the held counts of R44. No command stops
the machine, so a run is safe when every state of it is sound. -/

namespace Sys2Proof.Machine

/-- The time base is in its ranges (R1, R4, R6, R8, R9). A boundary that waits to be taken is at b 0. -/
structure State.TimeBaseSound (s : State) : Prop where
  tick_below : s.time.tick < s.cycleTicks
  exponent_range : s.time.hExp ≤ 4
  index_below : s.time.b < 2 ^ s.time.hExp
  pending_range : ∀ h, s.store.pendingH = some h → h ≤ 4
  settle_range : s.time.settle ≤ settleBaseCycles
  settling_start : 0 < s.time.settle → s.time.b = 0 ∧ s.time.hypercycle = 0
  boundary_start : s.time.boundaryDue ≠ .none → s.time.b = 0 ∧ s.time.settle = 0

/-- Every port calendar holds one beacon window, at rate H, phase 0, offset 0 and length 848 (R50), and stands in the
order of offset and phase (R48). -/
structure State.CalendarsSound (s : State) : Prop where
  beacon : ∀ p : Port, (s.ports[p]).calendar.filter (fun w => !w.reserves) = [beaconWindow s.time.hExp]
  ordered : ∀ p : Port, (s.ports[p]).calendar.Pairwise fun a b => windowBefore b a = false

/-- The three laws of R55 for a set of windows on a port with cap `c`: no two collide, no base cycle is loaded beyond
the cap, and every window lies on the grain within L; and the limit of 32 reservation windows (R48, R56). -/
structure ViewLawful (cycleTicks h c : Nat) (ws : List Window) : Prop where
  apart : ws.Pairwise fun a b => collide a b = false
  within_cap : ∀ b < 2 ^ h, loadOf ws b ≤ c
  on_grain : ∀ w ∈ ws, w.offset % 16 = 0 ∧ w.length % 16 = 0 ∧ w.offset + w.length ≤ cycleTicks
  room : (ws.filter Window.reserves).length ≤ 32

/-- R55 in the installed calendar and in the planned view of every port. -/
structure State.ViewsLawful (s : State) : Prop where
  installed : ∀ p : Port, ViewLawful s.cycleTicks s.time.hExp (s.cap p) (s.ports[p]).calendar
  planned : ∀ p : Port, ViewLawful s.cycleTicks s.time.hExp (s.cap p) (s.planned p)

/-- The record of a window that is installed and not retiring: ACTIVE, DORMANT or SUSPENDED (R49, R60). -/
def RecordState.standing : RecordState → Bool
  | .active | .dormant | .suspended => true
  | .pending | .ending => false

/-- The windows, the change list and the pending H fit the reservation table (R49, R57, R60, R69): an installed
reservation window that is not retiring belongs to a standing record, a staged leg to a PENDING record whose leg 0 is
staged, and while an H is pending every record is FREE and nothing is staged. -/
structure State.TableFits (s : State) : Prop where
  windows : ∀ p : Port, ∀ w ∈ (s.ports[p]).calendar, ∀ i n, w.owner = .leg i n → w.retiring = false →
    (s.recordAt i).any (fun r => r.state.standing) = true
  staged : ∀ e ∈ s.store.changeList, (s.recordAt e.slot).any (fun r => r.state == .pending) = true ∧
    ∃ e0 ∈ s.store.changeList, e0.slot = e.slot ∧ e0.leg = .leg0
  timing : ∀ h, s.store.pendingH = some h → (∀ i : Slot, s.recordAt i = none) ∧ s.store.changeList = []

/-- The limits of the hold queues (R129), the open queues (R150), the non-reply places (R116) and the change list
(R57). -/
structure State.QueuesBounded (s : State) : Prop where
  hold : ∀ i : Slot, (s.slots[i]).queue0.length ≤ 4 ∧ (s.slots[i]).queue1.length ≤ 4
  openFrames : ∀ p : Port, (s.ports[p]).openQueue.length ≤ 64 ∧ bytesIn (s.ports[p]).openQueue ≤ 32768
  nonReplies : ∀ p : Port, (s.ports[p]).nonReplies ≤ 8
  changeList : s.store.changeList.length ≤ 16

/-- The number of non-FREE records that name master `m` as owner (R44). -/
def State.ownedBy (s : State) (m : MasterIndex) : Nat :=
  ((List.finRange 128).filter fun i => (s.recordAt i).any fun r => r.owner == m).length

/-- Held counts and request queue fit the master table (R44, R72, R96): a held count is the number of records owned; an
owner has an entry; each queued request is its master's one request, in QUEUED; an answer is awaited in EXECUTING
alone. -/
structure State.MastersFit (s : State) : Prop where
  held : ∀ m : MasterIndex, ∀ e, s.masters[m] = some e → e.held = s.ownedBy m
  owners : ∀ i : Slot, ∀ r, s.recordAt i = some r → (s.masters[r.owner]).isSome = true
  queued : ∀ rq ∈ s.admission.queue, (s.masters[rq.master]).any (fun e => e.phase == .queued) = true
  one_each : (s.admission.queue.map Request.master).Nodup
  awaiting : ∀ m : MasterIndex, ∀ e, s.masters[m] = some e → e.phase ≠ .executing → e.awaited = none

/-- The frames of a port that hold a place of its control queue: the one in transmission, then those queued (R116). -/
def PortState.controlFrames (ps : PortState) : List ControlFrame :=
  (match ps.tx with
    | .busy (.control f) _ _ => [f]
    | _ => []) ++ ps.controlQueue

/-- The masters whose replies hold a place on a port (R116). -/
def PortState.replyMasters (ps : PortState) : List MasterIndex :=
  ps.controlFrames.filterMap fun f =>
    match f.cls with
    | .reply m => some m
    | .notice _ | .other => none

/-- The replies on a control queue fit the master table (R99, R116): one at most for each master, which stands in
REPLY_DUE on that port. -/
structure State.RepliesFit (s : State) : Prop where
  one_each : ∀ p : Port, (s.ports[p]).replyMasters.Nodup
  due : ∀ p : Port, ∀ m ∈ (s.ports[p]).replyMasters, ∃ e, s.masters[m] = some e ∧ e.port = p ∧ e.phase = .replyDue

/-- How often non-FREE records name an address as owner or destination (R167). -/
def State.timesNamed (s : State) (a : Addr) : Nat :=
  ((List.finRange 128).filter fun i => (s.recordAt i).any fun r => r.ownerAddr == a).length
    + ((List.finRange 128).filter fun i => (s.recordAt i).any fun r => r.destAddr == a).length

/-- No two entries of the station table hold one address (R167). -/
def State.AddressesDistinct (s : State) : Prop :=
  ∀ (j k : Place) a b, s.stations[j] = some a → s.stations[k] = some b → a.addr = b.addr → j = k

/-- The station table fits the reservation table (R45, R167, R171): no address twice, every pin count the number of
records that name the address, and an entry for every address that a record names. -/
structure State.PinsFit (s : State) : Prop where
  distinct : s.AddressesDistinct
  pins : ∀ j : Place, ∀ e, s.stations[j] = some e → e.pins = s.timesNamed e.addr
  named : ∀ i : Slot, ∀ r, s.recordAt i = some r → ∀ a ∈ [r.ownerAddr, r.destAddr],
    ∃ (j : Place) (e : Station), s.stations[j] = some e ∧ e.addr = a

/-- While RESET is asserted every link state is held DOWN and nothing is sent (R3, R16, R156). -/
def State.HeldInReset (s : State) : Prop :=
  s.resetAsserted = true →
    ∀ p : Port, (s.ports[p]).link = .down ∧ (s.ports[p]).tx = .free ∧ (s.ports[p]).current = .none

/-! ### What statements expect of the clock -/

/-- The clock stands at the last tick of a base cycle whose start and boundary have been taken, so that the next period
begins a base cycle (R1). -/
def State.AtLastTick (s : State) : Prop :=
  s.time.tick + 1 = s.cycleTicks ∧ s.time.startDue = false ∧ s.time.boundaryDue = .none

/-- `s` one period later, at the first tick of the next base cycle, with its start and its boundary raised and not yet
taken (R1, R4, R8, R173). -/
def State.entered (s : State) : State :=
  { s with
    time :=
      { now := s.time.now + 1, tick := 0
        b := if 0 < s.time.settle ∨ 2 ^ s.time.hExp ≤ s.time.b + 1 then 0 else s.time.b + 1
        hypercycle := s.time.hypercycle, hExp := s.time.hExp, settle := s.time.settle - 1, startDue := true
        boundaryDue :=
          if s.time.settle = 1 then .endOfSettle
          else if s.time.settle = 0 ∧ 2 ^ s.time.hExp ≤ s.time.b + 1 then .hypercycle else .none }
    ageing := { s.ageing with sweepCount := s.ageing.sweepCount + 1 } }

/-! ### What statements expect of an answer -/

/-- The entry of a master whose reply has left its queue, sent or not: REPLY_DUE goes to IDLE, and the entry is removed
when it holds no record; in another phase it stays (R98, R113, R118). -/
def Master.replyLeft (e : Master) : Option Master :=
  if e.phase = .replyDue then
    if e.held = 0 then none else some { e with phase := .idle, request := none, awaited := none }
  else some e

/-- The body of frame `f`, at byte 20, holds `v` in the `n` bytes from its offset `o`, most significant first (chapter
11). -/
def bodyHolds (f : Frame) (o n v : Nat) : Prop := fieldAt f (20 + o) n = v % 256 ^ n

/-- The reply that answers a master's outstanding request (R107, R110): to its address, in a reply place, with the kind
and tag of the request. -/
def replyTo (m : MasterIndex) (e : Master) (rq : CurrentRequest) (st : Status) (body : AnswerBody) : ControlFrame :=
  { dest := e.addr, cls := .reply m, message := .answer (BitVec.ofNat 8 rq.kind.code) rq.tag st body }

/-- `s` with one more frame at the tail of the control queue of port `p` (R116). -/
def State.withControl (s : State) (p : Port) (f : ControlFrame) : State :=
  { s with ports := s.ports.set p { s.ports[p] with controlQueue := (s.ports[p]).controlQueue ++ [f] } }

/-- `s` with entry `e` at index `m` of the master table. -/
def State.withMaster (s : State) (m : MasterIndex) (e : Option Master) : State :=
  { s with masters := s.masters.set m e }

/-- `s` with the record of a slot replaced. -/
def State.withRecord (s : State) (i : Slot) (r : Option Record) : State :=
  { s with slots := s.slots.set i { s.slots[i] with record := r } }

/-- `s` with port `p` replaced. -/
def State.withPort (s : State) (p : Port) (ps : PortState) : State := { s with ports := s.ports.set p ps }

/-- `s` with slot `i` replaced. -/
def State.withSlot (s : State) (i : Slot) (c : SlotCell) : State := { s with slots := s.slots.set i c }

/-- A slot with the hold queue of leg `n` replaced (R129). -/
def SlotCell.withQueue (c : SlotCell) (n : LegNo) (q : List HoldEntry) : SlotCell :=
  { c with queue0 := if n = .leg0 then q else c.queue0, queue1 := if n = .leg1 then q else c.queue1 }

/-- The answer of R107 and R119: on a port that is UP the reply is queued and the master is in REPLY_DUE; on another it
is discarded and the master is IDLE, or removed when it holds nothing (R98). -/
def State.answered (s : State) (m : MasterIndex) (e : Master) (rq : CurrentRequest) (st : Status)
    (body : AnswerBody) : State :=
  if s.portUp e.port then
    (s.withControl e.port (replyTo m e rq st body)).withMaster m
      (some { e with phase := .replyDue, awaited := none })
  else
    s.withMaster m
      (if e.held = 0 then none else some { e with phase := .idle, request := none, awaited := none })

/-- A non-reply frame of R101 and R117: queued when the port is UP with one of its 8 places free, otherwise dropped. -/
def State.toldAtDoor (s : State) (p : Port) (dest : Addr) (kind : Byte) (tag : BitVec 16) (st : Status)
    (body : AnswerBody) : State :=
  if s.portUp p ∧ (s.ports[p]).nonReplies < 8 then
    s.withControl p { dest := dest, cls := .other, message := .answer kind tag st body }
  else s

/-- Window `w` with its retiring mark set when slot `i` owns it (R34, R60). -/
def Window.retiredFor (i : Slot) (w : Window) : Window :=
  match w.owner with
  | .leg j _ => { w with retiring := w.retiring || j == i }
  | .beacon => w

/-- An instance after slot `i` gave its windows up: a live one of the slot is lent from now (R66, R144). -/
def CurrentInstance.givenUpBy (i : Slot) (c : CurrentInstance) : CurrentInstance :=
  match c with
  | .window w => .window { w with cls := if w.slot = i ∧ w.cls = .live then .released else w.cls }
  | .beacon endAt => .beacon endAt
  | .none => .none

/-- `s` with record `r` of slot `i` in ENDING (R34, R41, R66): its reason, an empty wake set, its queues flushed into the
dropped frames, its installed windows retiring and its live instances lent; nothing else differs. -/
def State.withEnded (s : State) (i : Slot) (why : EndReason) (r : Record) : State :=
  { s.withSlot i
      { s.slots[i] with
        record := some
          { r with
            state := .ending
            endReason := some why
            wake := ⟨false, false⟩
            droppedFrames := satAdd r.droppedFrames ((s.slots[i]).queue0.length + (s.slots[i]).queue1.length) }
        queue0 := []
        queue1 := [] } with
    ports := s.ports.map fun ps =>
      { ps with
        calendar := ps.calendar.map (Window.retiredFor i)
        current := ps.current.givenUpBy i } }

/-- The request at the head of the queue with its master's entry and outstanding request: what the admission unit
takes (R73, R96). -/
structure State.Takes (s : State) (rq : Request) (e : Master) (cr : CurrentRequest) : Prop where
  released : s.resetAsserted = false
  unit_free : s.admission.waiting = .none
  head : s.admission.queue.head? = some rq
  entry : s.masters[rq.master] = some e
  request : e.request = some cr

/-- `s` with the head request gone from the queue (R72). -/
def State.decided (s : State) : State :=
  { s with admission := { s.admission with queue := s.admission.queue.tail } }

end Sys2Proof.Machine
end

