-- ==== Sys2Proof/Certificates/Slice0/Obligations.lean ====
section
/-! DEFINITION. The statements for the provers, about the machine and its commands. Where a statement says what a
command does, it gives the state `u` that the command's own effect leaves, field by field, after which every egress
scheduler applies its choice again (`settleEgress u`, assumption 28); `SchedulersTouchOnlyEgress` says what that can
change. -/

open Sys2Proof Sys2Proof.Machine

/-! ### The machine and its queue of commands -/

/-- A step executes the command at the front of the queue on the state with the rest of the queue. -/
def Obligations.StepRunsFrontCommand : Prop :=
  ∀ (c : Instr) (rest : List Instr) (s : State),
    step { s with pending := c :: rest } = exec c { s with pending := rest }

/-- Every command answers a next state, and leaves the queue of waiting commands as it was. The spec gives the device no
fault; that a command whose event cannot fall due, or that comes while RESET is asserted, answers a next state too is the
model's choice (assumptions 4 and 5). -/
def Obligations.EveryCommandCompletes : Prop :=
  ∀ (c : Instr) (s : State), ∃ t, exec c s = .next t ∧ t.pending = s.pending

/-! ### Reset (chapter 01; R47, R71, R95, R121, R138, R139, R166, R173, R188) -/

/-- The release of RESET gives the time base, the links and ports, the tables, the queues and the calendar store their
reset values, with the straps sampled and L by CYC (R1, R2, R3, R16, R47, R71, R95, R121, R138, R139, R166, R173, R188).
Model's choices: it does so in any state, asserted before or not (assumption 6); the start of the release stands raised
(assumption 7); no beacon content is held (assumption 36); the lists of the model are empty (assumption 15); the lines
keep the levels last sampled (assumption 8). -/
def Obligations.ResetReleasedGivesResetValues : Prop :=
  ∀ (straps : Straps) (s : State), ∃ t, exec (.resetReleased straps) s = .next t ∧
    t.resetAsserted = false ∧ t.straps = straps ∧ t.pending = s.pending ∧
    t.cycleTicks = [15625, 31250, 62500, 125000][straps.cyc] ∧
    t.deviceAddr = 0x0E5A00000800#48 + BitVec.ofNat 48 straps.unit ∧
    t.time.tick = 0 ∧ t.time.b = 0 ∧ t.time.hypercycle = 0 ∧ t.time.hExp = 3 ∧ t.time.settle = 64 ∧
    t.time.startDue = true ∧ t.time.boundaryDue = .none ∧ t.lines = s.lines ∧ t.beacon = none ∧ t.inbox = [] ∧
    t.switchAnswers = [] ∧
    (∀ i : Slot, t.slots[i] = { reuse := 0, record := none, queue0 := [], queue1 := [] }) ∧
    t.store = { changeList := [], generation := 0, pendingH := none } ∧
    t.admission = { queue := [], held := false, waiting := .none } ∧
    (∀ m : MasterIndex, t.masters[m] = none) ∧
    (∀ p : Port, t.ports[p] =
      { link := .down, receiveErrors := 0, strays := 0, openDrops := 0
        policy := { share := 32, jitter := 32, missLimit := 4, late := .hold, masterCapable := true, quota := 8 }
        calendar := [{ offset := 0, length := 848, rate := 3, phase := 0, owner := .beacon, retiring := false }]
        tx := .free, current := .none, controlQueue := [], openQueue := []
        longestOpen := 8 * t.cycleTicks - 848 }) ∧
    (∀ i : Place, t.stations[i] = none) ∧ t.ageing = { agePeriod := 300, sweepCount := 0 }

/-- The assertion of RESET cuts every frame and instance, holds the links DOWN, ends the waiting claim and stops the
events of the time base; the rest waits for the release, and until then nothing but RESET acts (R3, R16, R95, R155, R156;
the model's choice for commands that come all the same: assumption 5). -/
def Obligations.AssertedResetCutsAndHoldsTheDevice : Prop :=
  (∀ s : State, ∃ t, exec .resetAsserted s = .next t ∧
    (∀ p : Port, t.ports[p] = { s.ports[p] with tx := .free, current := .none, link := .down }) ∧
    t = { s with
          resetAsserted := true
          time := { s.time with startDue := false, boundaryDue := .none }
          admission := { s.admission with waiting := .none }
          inbox := []
          ports := t.ports }) ∧
  ∀ (c : Instr) (s : State), s.resetAsserted = true → c ≠ .resetAsserted → (∀ straps, c ≠ .resetReleased straps) →
    exec c s = .next s

/-! ### The time base and the links (chapters 01 and 08) -/

/-- A base-cycle start takes the tick counter to 0, lowers the settle counter or advances b, raises the boundary when b
returns to 0, and counts for the sweep; one already raised, as at the release of reset or after its boundary was taken
first, does none of this again (R1, R4, R8, R173). Then every link state steps, and the departures and arrivals are taken
port by port (R160; the order of ports: assumption 16; the hypercycle number in their notices, before the boundary of the
tick is taken: assumption 39). On an empty queue with nothing due one period of the clock passes (R1; assumption 3). The
model's choices: a command taken at tick L − 1 begins the base cycle and samples in one act, and one whose boundary was
taken first samples alone (assumption 10); at tick L − 1 it passes over what is due there and not yet taken (assumption
37). -/
def Obligations.BaseCycleStartAdvancesTheChain : Prop :=
  (∀ (lines : Vector PhyLines 8) (s : State), s.resetAsserted = false → s.AtLastTick →
    ∃ t, exec (.baseCycleStart lines) s = .next t ∧
      t.time =
        { now := s.time.now + 1, tick := 0
          b := if 0 < s.time.settle ∨ 2 ^ s.time.hExp ≤ s.time.b + 1 then 0 else s.time.b + 1
          hypercycle := s.time.hypercycle, hExp := s.time.hExp, settle := s.time.settle - 1, startDue := false
          boundaryDue :=
            if s.time.settle = 1 then .endOfSettle
            else if s.time.settle = 0 ∧ 2 ^ s.time.hExp ≤ s.time.b + 1 then .hypercycle else .none } ∧
      t.ageing = { s.ageing with sweepCount := s.ageing.sweepCount + 1 } ∧ t.lines = lines ∧
      t.straps = s.straps ∧ t.beacon = s.beacon ∧ t.admission = s.admission ∧ t.inbox = s.inbox ∧
      t.store.generation = s.store.generation ∧ t.store.pendingH = s.store.pendingH ∧
      ∀ p : Port, (t.ports[p]).policy = (s.ports[p]).policy) ∧
  (∀ (lines : Vector PhyLines 8) (s : State), s.resetAsserted = false → s.time.startDue = true →
    ∃ t, exec (.baseCycleStart lines) s = .next t ∧ t.time = { s.time with startDue := false } ∧
      t.ageing = s.ageing ∧ t.lines = lines ∧ t.straps = s.straps ∧ t.beacon = s.beacon ∧
      t.admission = s.admission ∧ t.inbox = s.inbox ∧ t.store.generation = s.store.generation ∧
      t.store.pendingH = s.store.pendingH ∧ ∀ p : Port, (t.ports[p]).policy = (s.ports[p]).policy) ∧
  (∀ (lines : Vector PhyLines 8) (s : State), s.resetAsserted = false → s.time.startDue = true ∨ s.AtLastTick →
    let u : State := if s.time.startDue then s else s.entered
    let sampled : State :=
      { u with
        time := { u.time with startDue := false }
        lines := lines
        ports := (stepLinks lines u).ports }
    let reported (p : Port) (t : State) : State :=
      if s.portUp p = true ∧ sampled.portUp p = false then
        portDepartsFromStations p (portDepartsFromMasters p (egressLoss p (portDepartsFromRecords p t)))
      else if s.portUp p = false ∧ sampled.portUp p = true then portArrivesAtRecords p t
      else t
    exec (.baseCycleStart lines) s = .next (settleEgress ((List.finRange 8).foldl (fun t p => reported p t) sampled))) ∧
  ∀ s : State, s.pending = [] → s.resetAsserted = false → s.dueEvent = none →
    (s.time.tick + 1 = s.cycleTicks → step s = .next (settleEgress s.entered)) ∧
    (s.time.tick + 1 ≠ s.cycleTicks →
      step s = .next (settleEgress
        { s with time := { s.time with now := s.time.now + 1, tick := s.time.tick + 1 } }))

/-- At each sample every port's link state, good-sample count and current speed change as the table of R158 shows. (That
a command taken at tick L − 1 begins the base cycle and samples in one act, passing over what is due there, is the model's
choice: assumptions 10 and 37.) -/
def Obligations.LinkStateFollowsItsSamples : Prop :=
  ∀ (lines : Vector PhyLines 8) (s : State), s.resetAsserted = false →
    (s.time.startDue = true ∨
      (s.time.tick + 1 = s.cycleTicks ∧ s.time.startDue = false ∧ s.time.boundaryDue = .none)) →
    ∃ t, exec (.baseCycleStart lines) s = .next t ∧ ∀ p : Port,
      (lines[p].fault = true → (t.ports[p]).link = .faulted) ∧
      (lines[p].fault = false → lines[p].link = true → (t.ports[p]).link =
        match (s.ports[p]).link with
        | .down => .comingUp 1
        | .comingUp n => if n < 7 then .comingUp (n + 1) else .up (if lines[p].speed then .mb1000 else .mb100)
        | .up v => .up v
        | .goingDown v => .up v
        | .faulted => .comingUp 1) ∧
      (lines[p].fault = false → lines[p].link = false → (t.ports[p]).link =
        match (s.ports[p]).link with
        | .down => .down
        | .comingUp _ => .down
        | .up v => .goingDown v
        | .goingDown _ => .down
        | .faulted => .down)

/-- At the departure of port `p`: every ACTIVE or DORMANT record with a leg on it is SUSPENDED in slot order (assumption
17), its queues flushed into the dropped frames, its misses 0, its wake set empty, its windows lent, and its owner is
handed a SUSPENDED notice, or NOTICE_LOST is set; other records stay (R32, R41, R43, R66, R161). The notice carries the
hypercycle number as counted then, which before the boundary of the tick is that of the hypercycle that closes (the
model's choice: assumption 39). The transmitter is
stopped and both queues are flushed, with NOTICE_LOST for a notice that still names a record and IDLE for the master of a
reply (R118, R152). Masters of the port in REPLY_DUE go to IDLE (R118). Its unpinned station entries are removed
(R175). -/
def Obligations.DepartureSuspendsTheRecordsOfThePort : Prop :=
  (∀ (s : State) (i : Slot) (r : Record), s.recordAt i = some r →
    let suspended : Record :=
      { r with
        state := .suspended
        leg0 := { r.leg0 with misses := 0 }
        leg1 := r.leg1.map fun l => { l with misses := 0 }
        wake := ⟨false, false⟩
        droppedFrames := satAdd r.droppedFrames ((s.slots[i]).queue0.length + (s.slots[i]).queue1.length) }
    let lent (c : CurrentInstance) : CurrentInstance :=
      match c with
      | .window w => .window { w with cls := if w.slot = i ∧ w.cls = .live then .released else w.cls }
      | .beacon e => .beacon e
      | .none => .none
    let u : State :=
      { s.withSlot i { s.slots[i] with record := some suspended, queue0 := [], queue1 := [] } with
        ports := s.ports.map fun ps => { ps with current := lent ps.current } }
    (s.portUp r.ownerPort = true → (s.ports[r.ownerPort]).nonReplies < 8 →
      suspendRecord i s =
        u.withControl r.ownerPort
          { dest := r.ownerAddr
            cls := .notice (i.val * 32 + (s.slots[i]).reuse.toNat)
            message :=
              .notice .suspended (i.val * 32 + (s.slots[i]).reuse.toNat) s.time.hypercycle r.flags none }) ∧
    (s.portUp r.ownerPort = false ∨ 8 ≤ (s.ports[r.ownerPort]).nonReplies →
      suspendRecord i s =
        u.withRecord i (some { suspended with flags := { r.flags with noticeLost := true } }))) ∧
  (∀ (p : Port) (s : State),
    portDepartsFromRecords p s =
      (List.finRange 128).foldl
        (fun t i => match t.recordAt i with
          | some r => if r.onPort p ∧ (r.state = .active ∨ r.state = .dormant) then suspendRecord i t else t
          | none => t) s) ∧
  (∀ (p : Port) (s : State) (i : Slot) (r : Record), s.recordAt i = some r →
    (r.onPort p = true ∧ (r.state = .active ∨ r.state = .dormant) →
      ∃ lost : Bool, (s.portUp r.ownerPort = false → lost = true) ∧
        (8 ≤ (s.ports[r.ownerPort]).nonReplies → lost = true) ∧
        (s.portUp r.ownerPort = true → ((portDepartsFromRecords p s).ports[r.ownerPort]).nonReplies < 8 →
          lost = false) ∧
        (portDepartsFromRecords p s).slots[i] =
          { s.slots[i] with
            record := some
              { r with
                state := .suspended
                leg0 := { r.leg0 with misses := 0 }
                leg1 := r.leg1.map fun l => { l with misses := 0 }
                wake := ⟨false, false⟩
                droppedFrames :=
                  satAdd r.droppedFrames ((s.slots[i]).queue0.length + (s.slots[i]).queue1.length)
                flags := { r.flags with noticeLost := r.flags.noticeLost || lost } }
            queue0 := []
            queue1 := [] }) ∧
    (r.onPort p = false ∨ (r.state ≠ .active ∧ r.state ≠ .dormant) →
      (portDepartsFromRecords p s).slots[i] = s.slots[i])) ∧
  (∀ (p : Port) (s : State), let t := egressLoss p s
    let gone := (s.ports[p]).controlFrames
    t = { s with ports := t.ports, slots := t.slots, masters := t.masters } ∧
    t.ports[p] = { s.ports[p] with tx := .free, controlQueue := [], openQueue := [] } ∧
    (∀ q : Port, q ≠ p → t.ports[q] = s.ports[q]) ∧
    (∀ i : Slot, t.slots[i] =
      { s.slots[i] with
        record := (s.recordAt i).map fun r =>
          if gone.any fun f => f.cls == .notice (i.val * 32 + (s.slots[i]).reuse.toNat) then
            { r with flags := { r.flags with noticeLost := true } }
          else r }) ∧
    ∀ m : MasterIndex, t.masters[m] =
      if gone.any fun f => f.cls == .reply m then (s.masters[m]).bind Master.replyLeft else s.masters[m]) ∧
  (∀ (p : Port) (s : State),
    portDepartsFromMasters p s =
      { s with
        masters := s.masters.map fun e =>
          match e with
          | some e => if e.port = p then e.replyLeft else some e
          | none => none }) ∧
  ∀ (p : Port) (s : State),
    portDepartsFromStations p s =
      { s with
        stations := s.stations.map fun e =>
          match e with
          | some e => if e.port = p ∧ e.pins = 0 then none else some e
          | none => none }

/-- At the arrival of port `p` a SUSPENDED record with a leg on it ends when some leg's egress port is UP at another
speed than admitted: reason SPEED_CHANGED, wake set empty, queues flushed into the dropped frames, windows retiring (R34,
R41). Otherwise it resumes when every leg port is UP and every egress port at the admitted speed: ACTIVE, every other
field as it was, and its owner is handed an ACTIVE notice, or NOTICE_LOST is set (R43, R114, R115). Otherwise it stays;
every other record stays as it is (R33, R162). The records are taken in slot order (assumption 17). The notice carries the
hypercycle number as counted then, which before the boundary of the tick is that of the hypercycle that closes (the
model's choice: assumption 39). -/
def Obligations.ArrivalEndsOrResumesSuspendedRecords : Prop :=
  (∀ (s : State) (r : Record),
    (s.otherSpeed r = true ↔ ∃ l ∈ r.legs, ∃ v, s.portSpeed l.egress = some v ∧ v ≠ l.speed) ∧
    (s.legsUp r = true ↔ ∀ l ∈ r.legs, s.portUp l.ingress = true ∧ s.portSpeed l.egress = some l.speed)) ∧
  (∀ (p : Port) (s : State),
    portArrivesAtRecords p s =
      (List.finRange 128).foldl
        (fun t i => match t.recordAt i with
          | some r =>
            if r.onPort p ∧ r.state = .suspended then
              if t.otherSpeed r then endRecord i .speedChanged t else if t.legsUp r then resumeRecord i t else t
            else t
          | none => t) s) ∧
  (∀ (s : State) (i : Slot) (r : Record), s.recordAt i = some r →
    (s.portUp r.ownerPort = true → (s.ports[r.ownerPort]).nonReplies < 8 →
      resumeRecord i s =
        (s.withRecord i (some { r with state := .active })).withControl r.ownerPort
          { dest := r.ownerAddr
            cls := .notice (i.val * 32 + (s.slots[i]).reuse.toNat)
            message :=
              .notice .active (i.val * 32 + (s.slots[i]).reuse.toNat) s.time.hypercycle r.flags none }) ∧
    (s.portUp r.ownerPort = false ∨ 8 ≤ (s.ports[r.ownerPort]).nonReplies →
      resumeRecord i s =
        s.withRecord i (some { r with state := .active, flags := { r.flags with noticeLost := true } }))) ∧
  ∀ (p : Port) (s : State) (i : Slot) (r : Record), s.recordAt i = some r →
    let t := portArrivesAtRecords p s
    let wrongSpeed := ∃ l ∈ r.legs, ∃ v, s.portSpeed l.egress = some v ∧ v ≠ l.speed
    let allUp := ∀ l ∈ r.legs, s.portUp l.ingress = true ∧ s.portSpeed l.egress = some l.speed
    (r.onPort p = true → r.state = .suspended → wrongSpeed →
      t.slots[i] =
        { s.slots[i] with
          record := some
            { r with
              state := .ending
              endReason := some .speedChanged
              wake := ⟨false, false⟩
              droppedFrames :=
                satAdd r.droppedFrames ((s.slots[i]).queue0.length + (s.slots[i]).queue1.length) }
          queue0 := []
          queue1 := [] } ∧
      ∀ q : Port, ∀ w ∈ (t.ports[q]).calendar, ∀ n, w.owner = .leg i n → w.retiring = true) ∧
    (r.onPort p = true → r.state = .suspended → ¬wrongSpeed → allUp →
      ∃ lost : Bool, (s.portUp r.ownerPort = false → lost = true) ∧
        (8 ≤ (s.ports[r.ownerPort]).nonReplies → lost = true) ∧
        (s.portUp r.ownerPort = true → (t.ports[r.ownerPort]).nonReplies < 8 → lost = false) ∧
        t.slots[i] =
          { s.slots[i] with
            record := some
              { r with
                state := .active
                flags := { r.flags with noticeLost := r.flags.noticeLost || lost } } }) ∧
    (r.onPort p = false ∨ r.state ≠ .suspended ∨ (¬wrongSpeed ∧ ¬allUp) → t.slots[i] = s.slots[i])

/-! ### The calendar switch (chapters 01, 02 and 03) -/

/-- The end of the settle period: b and the hypercycle number are 0, the switch with nothing to do changes nothing, and
the first beacon is captured with hypercycle number 0 (R10). Taken before the base-cycle start of its tick it acts on the
base cycle that begins there, whose start is then still to be taken (assumption 10), and passes over what is due at tick
L − 1 and not yet taken (assumption 37). Until it is taken the device answers STARTING (R9). -/
def Obligations.EndOfSettleOpensHypercycleZero : Prop :=
  (∀ s : State, s.resetAsserted = false → s.time.boundaryDue = .endOfSettle → s.store.changeList = [] →
    s.store.pendingH = none → (∀ p : Port, ∀ w ∈ (s.ports[p]).calendar, w.retiring = false) →
    (∀ i : Slot, ∀ r, s.recordAt i = some r → r.state ≠ .ending) →
    ∃ t, exec .endOfSettlePeriod s = .next t ∧
      t.time = { s.time with boundaryDue := .none, b := 0, hypercycle := 0 } ∧ t.store = s.store ∧
      (∀ p : Port, (t.ports[p]).calendar = (s.ports[p]).calendar) ∧
      t.beacon = some
        { unit := s.straps.unit, hypercycle := 0, generation := s.store.generation, cyc := s.straps.cyc
          hExp := s.time.hExp, held := s.admission.held, queueLength := s.admission.queue.length }) ∧
  ∀ s : State, s.resetAsserted = false → s.AtLastTick → s.time.settle = 1 →
    exec .endOfSettlePeriod s = exec .endOfSettlePeriod s.entered ∧ s.entered.time.boundaryDue = .endOfSettle ∧
      s.entered.settling = true

/-- At a hypercycle boundary the hypercycle number increments and wraps, a pending H becomes H, the change list is
emptied, the generation increments exactly when the switch removed or installed a window or changed H, and the beacon
is captured after that (R5, R6, R15, R61, R63). The answers of the switch come in the order of R109: installed records in
change-list order, freed records in slot order, then the requests decided, RELEASED, CLEARED or OK with the generation
the switch left. Taken before the base-cycle start of its tick the boundary acts on the base cycle that begins there
(assumption 10), and passes over what is due at tick L − 1 and not yet taken (assumption 37). The model's readings: the
heads are tested against the new G before any answer of the switch is queued (assumption 27), and the notices and replies
of the switch carry the number of the hypercycle that opens (assumption 18). -/
def Obligations.HypercycleBoundaryCountsAndSwitches : Prop :=
  (∀ s : State, s.resetAsserted = false → s.time.boundaryDue = .hypercycle →
    ∃ t, exec .hypercycleBoundary s = .next t ∧
      t.time =
        { s.time with
          boundaryDue := .none
          hypercycle := s.time.hypercycle + 1
          hExp := s.store.pendingH.getD s.time.hExp } ∧
      t.store.changeList = [] ∧ t.store.pendingH = none ∧
      (((∃ p : Port, ∃ w ∈ (s.ports[p]).calendar, w.retiring = true) ∨ s.store.changeList ≠ [] ∨
          s.store.pendingH.getD s.time.hExp ≠ s.time.hExp) →
        t.store.generation = s.store.generation + 1) ∧
      (¬((∃ p : Port, ∃ w ∈ (s.ports[p]).calendar, w.retiring = true) ∨ s.store.changeList ≠ [] ∨
          s.store.pendingH.getD s.time.hExp ≠ s.time.hExp) →
        t.store.generation = s.store.generation) ∧
      t.beacon = some
        { unit := s.straps.unit, hypercycle := s.time.hypercycle + 1, generation := t.store.generation
          cyc := s.straps.cyc, hExp := s.store.pendingH.getD s.time.hExp, held := s.admission.held
          queueLength := s.admission.queue.length }) ∧
  (∀ s : State, s.resetAsserted = false → s.AtLastTick → s.time.settle = 0 → 2 ^ s.time.hExp ≤ s.time.b + 1 →
    exec .hypercycleBoundary s = exec .hypercycleBoundary s.entered ∧ s.entered.time.boundaryDue = .hypercycle) ∧
  (∀ s : State, s.resetAsserted = false → s.time.boundaryDue = .hypercycle →
    let u : State := { s with time := { s.time with boundaryDue := .none, hypercycle := s.time.hypercycle + 1 } }
    let switched := (List.finRange 8).foldl (fun t p => testHeads p t) (calendarSwitch u)
    let installed :=
      ((s.store.changeList.filter fun e => e.leg == .leg0).map StagedLeg.slot).foldl (fun t i => installRecord i t)
        switched
    let freed :=
      ((List.finRange 128).filter fun i => (s.recordAt i).any fun r => r.state == .ending).foldl
        (fun t i => freeEnding i t) installed
    let answers := s.switchAnswers.foldl (fun t m => answerDeferred m t) freed
    exec .hypercycleBoundary s = .next (settleEgress (captureBeacon { answers with switchAnswers := [] }))) ∧
  ∀ (s : State) (m : MasterIndex) (e : Master) (cr : CurrentRequest), s.masters[m] = some e → e.request = some cr →
    (∀ n, e.awaited = some (.releasedAtSwitch n) →
      answerDeferred m s = s.answered m e cr .released (.released n s.store.generation)) ∧
    (∀ target cancelled ended, e.awaited = some (.cleared target cancelled ended) →
      answerDeferred m s = s.answered m e cr .cleared (.cleared target cancelled ended s.store.generation)) ∧
    (e.awaited = some .timing → answerDeferred m s = s.answered m e cr .ok (.timing s.time.hExp s.store.generation))

/-- The planned view of a port is its installed windows that are not retiring and the legs staged for it (R54). The
switch makes it the installed calendar, in the order of offset and phase, with the beacon window at a pending H (R48,
R61), and recomputes G from it (R149): the greatest distance, over the instances of one hypercycle, from the end of an
instance to the nearest opening of the calendar (that reading of G: assumption 26). -/
def Obligations.SwitchInstallsThePlannedView : Prop :=
  (∀ (s : State) (p : Port),
    s.planned p =
      ((s.ports[p]).calendar.filter fun w => !w.retiring) ++
        (s.store.changeList.filter fun e => e.egress == p).map fun e =>
          { offset := e.offset, length := e.length, rate := e.rate, phase := e.phase, owner := .leg e.slot e.leg
            retiring := false }) ∧
  (∀ (s : State) (p : Port),
    ((calendarSwitch s).ports[p]).calendar.Perm
      ((s.planned p).map fun w =>
        match s.store.pendingH with
        | none => w
        | some h => if w.owner = .beacon then { w with rate := h } else w) ∧
    ((s.ports[p]).calendar.Pairwise (fun a b => windowBefore b a = false) →
      ((calendarSwitch s).ports[p]).calendar.Pairwise fun a b => windowBefore b a = false)) ∧
  ∀ (s : State) (p : Port),
    let t := calendarSwitch s
    let cal := (t.ports[p]).calendar
    let h := s.store.pendingH.getD s.time.hExp
    let isInstance (b : Nat) (w : Window) : Prop := b < 2 ^ h ∧ w ∈ cal ∧ b % 2 ^ w.rate = w.phase
    let stretch (b : Nat) (w : Window) (g : Nat) : Prop :=
      (∃ v ∈ cal, v.distance s.cycleTicks b (w.offset + w.length) = g) ∧
        ∀ v ∈ cal, g ≤ v.distance s.cycleTicks b (w.offset + w.length)
    (∀ b w, isInstance b w → ∃ g ≤ (t.ports[p]).longestOpen, stretch b w g) ∧
      ((∃ b w, isInstance b w) → ∃ b w, isInstance b w ∧ stretch b w (t.ports[p]).longestOpen)

/-- At a hypercycle boundary every ENDING record goes FREE and its slot's reuse value increments, wrapping at 31 (R17,
R39). With it the owner's held count and the two pin counts fall (R44, R171), the release waiters are answered RELEASED
in the order in which they joined, and an owner not among them is handed the ENDED notice, whose loss leaves no trace
(R39, R43, R109, R114, R115). -/
def Obligations.BoundaryFreesEndingRecords : Prop :=
  (∀ (s t : State) (i : Slot) (r : Record), s.resetAsserted = false → s.time.boundaryDue = .hypercycle →
    s.recordAt i = some r → r.state = .ending → exec .hypercycleBoundary s = .next t →
    t.slots[i] = { reuse := (s.slots[i]).reuse + 1, record := none, queue0 := [], queue1 := [] }) ∧
  (∀ (s : State) (i : Slot) (r : Record), s.recordAt i = some r → s.AddressesDistinct →
    freeRecord i s =
      { s.withSlot i { reuse := (s.slots[i]).reuse + 1, record := none, queue0 := [], queue1 := [] } with
        masters := s.masters.set r.owner ((s.masters[r.owner]).bind fun e =>
          if e.phase = .idle ∧ e.held ≤ 1 then none else some { e with held := e.held - 1 })
        stations := s.stations.map fun x =>
          x.map fun x =>
            { x with
              pins := x.pins - (if x.addr = r.ownerAddr then 1 else 0) - (if x.addr = r.destAddr then 1 else 0) } }) ∧
  ∀ (s : State) (i : Slot) (r : Record), s.recordAt i = some r →
    let n := i.val * 32 + (s.slots[i]).reuse.toNat
    let released (t : State) (m : MasterIndex) : State :=
      match t.masters[m] with
      | some e =>
        match e.awaited, e.request with
        | some (.release j), some cr =>
          if j = i then t.answered m e cr .released (.released n t.store.generation) else t
        | _, _ => t
      | none => t
    let told := r.waiters.foldl released (freeRecord i s)
    (r.owner ∈ r.waiters → freeEnding i s = told) ∧
    (r.owner ∉ r.waiters → told.portUp r.ownerPort = true → (told.ports[r.ownerPort]).nonReplies < 8 →
      freeEnding i s =
        told.withControl r.ownerPort
          { dest := r.ownerAddr, cls := .other
            message := .notice .ended n s.time.hypercycle r.flags
              (r.endReason.map fun why => (why, r.delivered, r.missedWindows)) }) ∧
    (r.owner ∉ r.waiters → told.portUp r.ownerPort = false ∨ 8 ≤ (told.ports[r.ownerPort]).nonReplies →
      freeEnding i s = told)

/-- At a hypercycle boundary a PENDING record whose legs are staged takes the number of the hypercycle that opens and
the state of the table of R23, and its owner, which awaits the grant of the slot, is answered GRANTED with the contents
of R111. -/
def Obligations.BoundaryInstallsPendingRecords : Prop :=
  (∀ (s t : State) (i : Slot) (r : Record) (e : StagedLeg), s.resetAsserted = false →
    s.time.boundaryDue = .hypercycle → s.recordAt i = some r → r.state = .pending → e ∈ s.store.changeList →
    e.slot = i → e.leg = .leg0 → exec .hypercycleBoundary s = .next t →
    let wrongSpeed := ∃ l ∈ r.legs, ∃ v, s.portSpeed l.egress = some v ∧ v ≠ l.speed
    let allUp := ∀ l ∈ r.legs, s.portUp l.ingress = true ∧ s.portSpeed l.egress = some l.speed
    ∃ r', t.recordAt i = some r' ∧ r'.firstHypercycle = some (s.time.hypercycle + 1) ∧
      (allUp → r'.state = .active) ∧ (¬allUp → ¬wrongSpeed → r'.state = .suspended) ∧
      (wrongSpeed → r'.state = .ending ∧ r'.endReason = some .speedChanged)) ∧
  ∀ (s : State) (i : Slot) (r : Record) (e : Master) (cr : CurrentRequest), s.recordAt i = some r →
    r.state = .pending → s.masters[r.owner] = some e → e.awaited = some (.grant i) → e.request = some cr →
    let wrongSpeed := ∃ l ∈ r.legs, ∃ v, s.portSpeed l.egress = some v ∧ v ≠ l.speed
    let allUp := ∀ l ∈ r.legs, s.portUp l.ingress = true ∧ s.portSpeed l.egress = some l.speed
    let entered (st : RecordState) : State :=
      s.withRecord i (some { r with state := st, firstHypercycle := some s.time.hypercycle })
    let reply (st : RecordState) : AnswerBody :=
      .granted
        { state := st, stream := i.val * 32 + (s.slots[i]).reuse.toNat, firstHypercycle := s.time.hypercycle
          generation := s.store.generation, rate := r.rate, phase := r.phase, leg0 := r.leg0, leg1 := r.leg1 }
    (allUp → installRecord i s = (entered .active).answered r.owner e cr .granted (reply .active)) ∧
    (¬allUp → ¬wrongSpeed →
      installRecord i s = (entered .suspended).answered r.owner e cr .granted (reply .suspended)) ∧
    (wrongSpeed →
      installRecord i s =
        (endRecord i .speedChanged (entered .suspended)).answered r.owner e cr .granted (reply .suspended))

/-! ### The station table (chapter 09) -/

/-- A sweep removes every entry that is neither seen nor pinned, clears the seen flag of every other, and takes the
sweep count to 0 (R173, R174). -/
def Obligations.SweepRemovesTheUnseenUnpinned : Prop :=
  ∀ s : State, s.resetAsserted = false → sweepPeriod s.straps.cyc s.ageing.agePeriod ≤ s.ageing.sweepCount →
    ∃ u, exec .sweep s = .next (settleEgress u) ∧
      (∀ j : Place, u.stations[j] =
        match s.stations[j] with
        | none => none
        | some e => if e.seen = false ∧ e.pins = 0 then none else some { e with seen := false }) ∧
      u = { s with stations := u.stations, ageing := { s.ageing with sweepCount := 0 } }

/-- Learning follows the rows of R168: groups and the device's own address are not learned; an unknown address takes the
lowest free place, or none; a known one is marked seen and moves to the arrival port, and a pinned one that moves is
reported to the reservation table (R169). -/
def Obligations.LearningFollowsItsTable : Prop :=
  ∀ (p : Port) (a : Addr) (s : State),
    (isGroup a = true ∨ a = s.deviceAddr → learn p a s = s) ∧
    (isGroup a = false → a ≠ s.deviceAddr →
      ((∀ j : Place, ∀ e, s.stations[j] = some e → e.addr ≠ a) →
        (∀ j : Place, s.stations[j] = none → (∀ k : Place, k < j → (s.stations[k]).isSome = true) →
          learn p a s =
            { s with stations := s.stations.set j (some { addr := a, port := p, seen := true, pins := 0 }) }) ∧
        ((∀ j : Place, (s.stations[j]).isSome = true) → learn p a s = s)) ∧
      (∀ (j : Place) (e : Station), s.stations[j] = some e → e.addr = a →
        (∀ k : Place, ∀ e', s.stations[k] = some e' → e'.addr = a → k = j) →
        (e.port = p ∨ e.pins = 0 →
          learn p a s = { s with stations := s.stations.set j (some { e with port := p, seen := true }) }) ∧
        (e.port ≠ p → 0 < e.pins →
          learn p a s =
            stationMoved a { s with stations := s.stations.set j (some { e with port := p, seen := true }) })))

/-- A frame of the open class is learned and then forwarded; it goes where the table of R176 says, and each copy meets
the open queue of its port by itself: appended when the port is UP and 64 frames and 32,768 bytes are kept, otherwise
counted as an open drop (R125, R150, R168, R176). -/
def Obligations.OpenFramesAreForwardedByTheTable : Prop :=
  (∀ (p : Port) (f : Frame) (s : State), s.resetAsserted = false → s.portUp p = true → goodFcs f = true →
    64 ≤ f.length → f.length ≤ 1522 → etherTypeOf f ≠ 0x9A71 →
    etherTypeOf f ≠ 0x9A72 ∨ (destinationOf f ≠ s.deviceAddr ∧ destinationOf f ≠ BitVec.allOnes 48) →
    exec (.frameReceived p f) s = .next (settleEgress (forward p f (learn p (sourceOf f) s)))) ∧
  (∀ (p : Port) (f : Frame) (s : State),
    let queued (q : Port) : PortState :=
      if s.portUp q = true ∧ (s.ports[q]).openQueue.length < 64 ∧
          ((s.ports[q]).openQueue.map List.length).sum + f.length ≤ 32768 then
        { s.ports[q] with openQueue := (s.ports[q]).openQueue ++ [f] }
      else
        { s.ports[q] with
          openDrops := if (s.ports[q]).openDrops = 65535#16 then 65535#16 else (s.ports[q]).openDrops + 1 }
    (destinationOf f = s.deviceAddr → forward p f s = s) ∧
    (destinationOf f ≠ s.deviceAddr →
      (isGroup (destinationOf f) = true ∨ (∀ j : Place, ∀ e, s.stations[j] = some e → e.addr ≠ destinationOf f) →
        (∀ q : Port, (forward p f s).ports[q] =
          if q ≠ p ∧ s.portUp q = true then queued q else s.ports[q]) ∧
        forward p f s = { s with ports := (forward p f s).ports }) ∧
      (isGroup (destinationOf f) = false → ∀ (j : Place) (e : Station), s.stations[j] = some e →
        e.addr = destinationOf f → (∀ k : Place, ∀ e', s.stations[k] = some e' → e'.addr = e.addr → k = j) →
        forward p f s = if e.port = p then s else s.withPort e.port (queued e.port))))

/-- A station move or a clear reaches each record it names: PENDING goes FREE with the next reuse value and its legs are
withdrawn; ACTIVE, DORMANT and SUSPENDED enter ENDING with the reason and flushed queues; ENDING and every other record
stay (R24, R34, R37, R38). The owner of a PENDING record, EXECUTING and awaiting the grant of its slot, is answered
CANCELLED in the same act with the stream number and the cause (R108). Ending changes the record, its queues, the marks
of its windows and its live instances, and nothing else (R34, R66, R144). A move names the records whose owner or
destination the moved station is, with STATION_MOVED (R37, R169). The records are taken in slot order (assumption
17). -/
def Obligations.MovesAndClearsEndOrCancelRecords : Prop :=
  (∀ (a : Addr) (s : State),
    stationMoved a s = endAll (fun r => r.ownerAddr == a || r.destAddr == a) .stationMoved s) ∧
  (∀ (f : Record → Bool) (why : EndReason) (s : State),
    endAll f why s =
      (List.finRange 128).foldl
        (fun t i => match t.recordAt i with
          | some r => if f r then endOrCancel i why t else t
          | none => t) s) ∧
  (∀ (s : State) (i : Slot) (why : EndReason) (r : Record), s.recordAt i = some r →
    (r.state = .active ∨ r.state = .dormant ∨ r.state = .suspended →
      endOrCancel i why s = endRecord i why s) ∧
    (r.state = .ending → endOrCancel i why s = s) ∧
    endRecord i why s = s.withEnded i why r) ∧
  (∀ (f : Record → Bool) (why : EndReason) (s : State) (i : Slot),
    (∀ r, s.recordAt i = some r → f r = true → r.state = .pending →
      (endAll f why s).slots[i] = { reuse := (s.slots[i]).reuse + 1, record := none, queue0 := [], queue1 := [] } ∧
      ∀ e ∈ (endAll f why s).store.changeList, e.slot ≠ i) ∧
    (∀ r, s.recordAt i = some r → f r = true →
      r.state = .active ∨ r.state = .dormant ∨ r.state = .suspended →
      (endAll f why s).slots[i] =
        { s.slots[i] with
          record := some
            { r with
              state := .ending
              endReason := some why
              wake := ⟨false, false⟩
              droppedFrames :=
                satAdd r.droppedFrames ((s.slots[i]).queue0.length + (s.slots[i]).queue1.length) }
          queue0 := []
          queue1 := [] } ∧
      ∀ p : Port, ∀ w ∈ ((endAll f why s).ports[p]).calendar, ∀ n, w.owner = .leg i n → w.retiring = true) ∧
    (∀ r, s.recordAt i = some r → f r = false ∨ r.state = .ending → (endAll f why s).slots[i] = s.slots[i]) ∧
    (s.recordAt i = none → (endAll f why s).slots[i] = s.slots[i])) ∧
  ∀ (s : State) (i : Slot) (why : EndReason) (r : Record) (e : Master) (cr : CurrentRequest),
    s.recordAt i = some r → r.state = .pending → s.masters[r.owner] = some e → e.awaited = some (.grant i) →
    e.phase = .executing → e.request = some cr →
    let withdrawn : State :=
      { s with store := { s.store with changeList := s.store.changeList.filter fun x => x.slot != i } }
    endOrCancel i why s = cancelRecord i why s ∧
    cancelRecord i why s =
      (freeRecord i withdrawn).answered r.owner { e with held := e.held - 1 } cr .cancelled
        (.cancelled (i.val * 32 + (s.slots[i]).reuse.toNat) why)

/-! ### Egress (chapter 07) -/

/-- When the schedulers apply their choice again, only transmitters, sent counts, queues, open drops, NOTICE_LOST and
the masters of removed replies can change (R143, R147, R149). A busy transmitter stays, with its instance; an instance
changes only by counting the frame it sends; queues lose frames from their heads, a hold queue to a transmitter alone,
and an open queue to its transmitter and to the open drops; NOTICE_LOST is set for a removed notice that names the record,
and a master in REPLY_DUE whose reply is removed goes to IDLE or leaves the table, each only where a control frame
exceeds G. Every other piece of state is as it was. -/
def Obligations.SchedulersTouchOnlyEgress : Prop :=
  ∀ s : State, let t := settleEgress s
    let removed (cls : ControlClass) : Prop :=
      ∃ p : Port, ∃ sp, s.portSpeed p = some sp ∧ (s.ports[p]).longestOpen < 84 * ticksPerByte sp ∧
        ∃ f ∈ (s.ports[p]).controlQueue, f.cls = cls
    t = { s with ports := t.ports, slots := t.slots, masters := t.masters } ∧
    (∀ p : Port, t.ports[p] =
        { s.ports[p] with
          tx := (t.ports[p]).tx
          current := (t.ports[p]).current
          controlQueue := (t.ports[p]).controlQueue
          openQueue := (t.ports[p]).openQueue
          openDrops := (t.ports[p]).openDrops } ∧
      (t.ports[p]).controlQueue <:+ (s.ports[p]).controlQueue ∧ (t.ports[p]).openQueue <:+ (s.ports[p]).openQueue ∧
      ((s.ports[p]).tx ≠ .free →
        (t.ports[p]).tx = (s.ports[p]).tx ∧ (t.ports[p]).current = (s.ports[p]).current) ∧
      ((t.ports[p]).current = (s.ports[p]).current ∨
        ∃ w f endAt, (s.ports[p]).current = .window w ∧ w.cls = .live ∧
          (t.ports[p]).current = .window { w with sent := w.sent + 1 } ∧
          (t.ports[p]).tx = .busy (.window w.slot w.leg) f endAt) ∧
      ∃ k, (t.ports[p]).openDrops = satAdd (s.ports[p]).openDrops k ∧
        (s.ports[p]).openQueue.length = (t.ports[p]).openQueue.length + k +
          match (s.ports[p]).tx, (t.ports[p]).tx with
          | .free, .busy .openFrame _ _ => 1
          | _, _ => 0) ∧
    (∀ i : Slot, (t.slots[i]).reuse = (s.slots[i]).reuse ∧
      (∀ n : LegNo, (t.slots[i]).queue n <:+ (s.slots[i]).queue n ∧
        ((t.slots[i]).queue n = (s.slots[i]).queue n ∨
          ∃ p : Port, ∃ f endAt, (s.ports[p]).tx = .free ∧ (t.ports[p]).tx = .busy (.window i n) f endAt)) ∧
      (t.recordAt i = s.recordAt i ∨
        (removed (.notice (i.val * 32 + (s.slots[i]).reuse.toNat)) ∧
          t.recordAt i = (s.recordAt i).map fun r => { r with flags := { r.flags with noticeLost := true } }))) ∧
    ∀ m : MasterIndex, t.masters[m] = s.masters[m] ∨
      ∃ e, s.masters[m] = some e ∧ e.phase = .replyDue ∧ removed (.reply m) ∧ t.masters[m] = e.replyLeft

/-- A frame started by a scheduler: a motion frame ends by the end of its own live instance; a control or open frame
ends by the next opening of every bounding window, and in the settle period by its end (R9, R140, R143, R146). No head
whose wire time exceeds the longest open stretch G stays in its queue: the test of a port removes its control frames when
they exceed G, setting NOTICE_LOST for a notice that still names a record and sending the master of a reply to IDLE, and
the long heads of its open queue into the open drops (R149; when the test is made: assumption 27). -/
def Obligations.NoFrameRunsPastItsBound : Prop :=
  (∀ (p : Port) (s : State) (c : Claimant) (f : Frame) (endAt : Nat), (s.ports[p]).tx = .free →
    ((chooseFrame p s).ports[p]).tx = .busy c f endAt →
    (∃ sp, s.portSpeed p = some sp ∧ endAt = s.time.now + (f.length + 20) * ticksPerByte sp ∨
      ∃ sp, s.portSpeed p = some sp ∧ endAt = s.time.now + 84 * ticksPerByte sp ∧ ∃ g, c = .control g) ∧
    match c with
    | .beacon => False
    | .window i n => ∃ w, (s.ports[p]).current = .window w ∧ w.cls = .live ∧ w.slot = i ∧ w.leg = n ∧ endAt ≤ w.endAt
    | .control _ | .openFrame =>
      (∀ w, (s.ports[p]).current = .window w → w.cls ≠ .live) ∧
      (0 < s.time.settle → endAt - s.time.now ≤ s.time.settle * s.cycleTicks - s.time.tick) ∧
      (s.time.settle = 0 → ∀ w ∈ (s.ports[p]).calendar, s.bounding w = true →
        endAt - s.time.now ≤ w.distance s.cycleTicks s.time.b s.time.tick)) ∧
  (∀ (s : State) (p : Port), s.portSpeed p = none → testHeads p s = s) ∧
  (∀ (s : State) (p : Port) (sp : Speed), s.portSpeed p = some sp →
    let ps := s.ports[p]
    let exceeds (bytes : Nat) : Bool := decide (ps.longestOpen < (bytes + 20) * ticksPerByte sp)
    let gone := if exceeds 64 then ps.controlQueue else []
    let t := testHeads p s
    t = { s with ports := t.ports, slots := t.slots, masters := t.masters } ∧
    t.ports[p] =
      { ps with
        controlQueue := if exceeds 64 then [] else ps.controlQueue
        openQueue := ps.openQueue.dropWhile fun f => exceeds f.length
        openDrops := satAdd ps.openDrops (ps.openQueue.takeWhile fun f => exceeds f.length).length } ∧
    (∀ q : Port, q ≠ p → t.ports[q] = s.ports[q]) ∧
    (∀ i : Slot, t.slots[i] =
      { s.slots[i] with
        record := (s.recordAt i).map fun r =>
          if gone.any fun f => f.cls == .notice (i.val * 32 + (s.slots[i]).reuse.toNat) then
            { r with flags := { r.flags with noticeLost := true } }
          else r }) ∧
    ∀ m : MasterIndex, t.masters[m] =
      if gone.any fun f => f.cls == .reply m then (s.masters[m]).bind Master.replyLeft else s.masters[m]) ∧
  ∀ (s : State) (p : Port) (sp : Speed), s.portSpeed p = some sp →
    let ps := (settleEgress s).ports[p]
    (∀ f, ps.openQueue.head? = some f → (f.length + 20) * ticksPerByte sp ≤ ps.longestOpen) ∧
    (ps.controlQueue ≠ [] → 84 * ticksPerByte sp ≤ ps.longestOpen)

/-- When the schedulers apply their choice again, each port in turn tests its heads, makes its choice and tests its new
heads (R143, R147, R149; assumption 28). A busy transmitter, or a port that is not UP, chooses nothing. In a live
instance the FREE transmitter starts the head of the leg's hold queue exactly when the head's ready time has come, the
instance has sent fewer than f frames and the frame ends by the instance's end (R143). In open time it starts the control
head if it fits, otherwise the open head if it fits, and otherwise nothing (R146, R147). -/
def Obligations.LiveInstanceSendsItsReadyHead : Prop :=
  (∀ s : State,
    settleEgress s =
      (List.finRange 8).foldl (fun t p => testHeads p (chooseFrame p (testHeads p t))) s) ∧
  (∀ (p : Port) (s : State), s.portSpeed p = none ∨ (s.ports[p]).tx ≠ .free → chooseFrame p s = s) ∧
  (∀ (p : Port) (s : State) (w : WindowInstance), (s.ports[p]).current = .window w → w.cls = .live →
    (s.slots[w.slot]).queue w.leg = [] → chooseFrame p s = s) ∧
  (∀ (p : Port) (s : State) (sp : Speed) (w : WindowInstance) (r : Record) (l : Leg) (e : HoldEntry)
    (rest : List HoldEntry), s.portSpeed p = some sp → (s.ports[p]).tx = .free →
    (s.ports[p]).current = .window w → w.cls = .live → s.recordAt w.slot = some r → r.leg w.leg = some l →
    (s.slots[w.slot]).queue w.leg = e :: rest →
    let endAt := s.time.now + (e.frame.length + 20) * ticksPerByte sp
    chooseFrame p s =
      if (e.mark = .ready ∨ e.mark = .late) ∧ w.sent < l.framesPerWindow ∧ endAt ≤ w.endAt then
        (s.withSlot w.slot ((s.slots[w.slot]).withQueue w.leg rest)).withPort p
          { s.ports[p] with
            tx := .busy (.window w.slot w.leg) e.frame endAt
            current := .window { w with sent := w.sent + 1 } }
      else s) ∧
  ∀ (p : Port) (s : State) (sp : Speed), s.portSpeed p = some sp → (s.ports[p]).tx = .free →
    (∀ w, (s.ports[p]).current = .window w → w.cls ≠ .live) →
    let fits (wire : Nat) : Prop :=
      if 0 < s.time.settle ∨ s.time.boundaryDue = .endOfSettle then
        wire ≤ s.time.settle * s.cycleTicks - s.time.tick
      else
        ∀ w ∈ (s.ports[p]).calendar, s.bounding w = true → wire ≤ w.distance s.cycleTicks s.time.b s.time.tick
    let controlWire := 84 * ticksPerByte sp
    let openWire (f : Frame) := (f.length + 20) * ticksPerByte sp
    (∀ f rest, (s.ports[p]).controlQueue = f :: rest → fits controlWire →
      chooseFrame p s = s.withPort p
        { s.ports[p] with
          tx := .busy (.control f) (frameOfMessage s.straps.unit f.dest f.message) (s.time.now + controlWire)
          controlQueue := rest }) ∧
    ((s.ports[p]).controlQueue = [] ∨ ¬fits controlWire →
      (∀ f rest, (s.ports[p]).openQueue = f :: rest → fits (openWire f) →
        chooseFrame p s = s.withPort p
          { s.ports[p] with tx := .busy .openFrame f (s.time.now + openWire f), openQueue := rest }) ∧
      ((∀ f, (s.ports[p]).openQueue.head? = some f → ¬fits (openWire f)) → chooseFrame p s = s))

/-- The end of a control frame's wire time frees the transmitter and the frame's place; for a reply the master goes from
REPLY_DUE to IDLE, and its entry is removed when it holds no record (R98, R113, R139). Other frames free the transmitter
alone. -/
def Obligations.TransmissionEndFreesTransmitterAndMaster : Prop :=
  ∀ (p : Port) (s : State) (c : Claimant) (f : Frame) (endAt : Nat), s.resetAsserted = false →
    (s.ports[p]).tx = .busy c f endAt → endAt ≤ s.time.now →
    let freed := s.withPort p { s.ports[p] with tx := .free }
    let leaves (u : State) : Prop :=
      endTransmission p s = u ∧ exec (.frameTransmitEnd p) s = .next (settleEgress u)
    (∀ (g : ControlFrame) (m : MasterIndex) (e : Master), c = .control g → g.cls = .reply m →
      s.masters[m] = some e → e.phase = .replyDue →
      leaves (freed.withMaster m
        (if e.held = 0 then none else some { e with phase := .idle, request := none, awaited := none }))) ∧
    ((∀ g m, c = .control g → g.cls ≠ .reply m) → leaves freed)

/-! ### Window openings and ends (chapters 02 and 07) -/

/-- The time base raises the opening of an installed window exactly at its offset in the base cycles it occupies, from
hypercycle 0 on and after the boundary of its tick, whatever the port's link state, and once: when the window's own
instance of this tick is current, its opening has been taken (R7, R11, R12). -/
def Obligations.OpeningsAreRaisedAtTheirOffsets : Prop :=
  ∀ (s : State) (p : Port) (w : Window), (∀ v ∈ (s.ports[p]).calendar, v.owner = w.owner → v = w) →
    let taken : Prop :=
      match (s.ports[p]).current with
      | .none => False
      | .beacon endAt => w.owner = .beacon ∧ endAt = s.time.now + w.length
      | .window c => w.owner = .leg c.slot c.leg ∧ c.endAt = s.time.now + w.length
    (s.openingOf p w.owner = some w ↔
      w ∈ (s.ports[p]).calendar ∧ s.time.settle = 0 ∧ s.time.boundaryDue = .none ∧
        s.time.b % 2 ^ w.rate = w.phase ∧ s.time.tick = w.offset ∧ ¬taken)

/-- At its opening, after what falls due on the port at that tick (assumption 25), the beacon instance becomes current,
and on an UP port with the transmitter FREE the beacon of the captured content is started for 84 bytes of wire time; on
another port no beacon is sent (R14, R141). -/
def Obligations.BeaconStartsAtItsOpening : Prop :=
  ∀ (s : State) (p : Port) (w : Window), s.resetAsserted = false → s.openingOf p .beacon = some w →
    let t := clearForOpening p s
    let opened : PortState := { t.ports[p] with current := .beacon (s.time.now + w.length) }
    (∀ content sp, s.beacon = some content → s.portSpeed p = some sp → (t.ports[p]).tx = .free →
      exec (.windowOpening p .beacon) s = .next (settleEgress (t.withPort p
        { opened with
          tx := .busy .beacon (frameOfMessage s.straps.unit (BitVec.allOnes 48) (.beacon content))
            (s.time.now + 84 * ticksPerByte sp) }))) ∧
    (s.beacon = none ∨ s.portSpeed p = none ∨ (t.ports[p]).tx ≠ .free →
      exec (.windowOpening p .beacon) s = .next (settleEgress (t.withPort p opened)))

/-- The opening of a reservation window is classed by the table of R142: live for an ACTIVE record, or a DORMANT one with
the leg in its wake set, which wakes first (R30), each with the transmitter FREE; lent otherwise. The instance begins
with no frame sent. What falls due on the port at the same tick is taken before it: the end of a transmission, then the
end of an instance that touches the window (R12, R139; assumption 25). (That any busy transmitter displaces is the
model's reading: assumption 24.) -/
def Obligations.OpeningIsClassedLiveOrLent : Prop :=
  (∀ (s : State) (p : Port),
    (transmissionEnded p s = true ↔ ∃ c f endAt, (s.ports[p]).tx = .busy c f endAt ∧ endAt ≤ s.time.now) ∧
    (instanceEnded p s = true ↔
      (∃ endAt, (s.ports[p]).current = .beacon endAt ∧ endAt ≤ s.time.now) ∨
        ∃ w, (s.ports[p]).current = .window w ∧ w.endAt ≤ s.time.now) ∧
    let sent := if transmissionEnded p s = true then endTransmission p s else s
    clearForOpening p s = if instanceEnded p sent = true then endInstance p sent else sent) ∧
  ∀ (s : State) (p : Port) (i : Slot) (n : LegNo) (w : Window), s.resetAsserted = false →
    s.openingOf p (.leg i n) = some w →
    let t := clearForOpening p s
    let wakes := ∃ r, t.recordAt i = some r ∧ r.state = .dormant ∧ r.wake.has n = true ∧ (t.ports[p]).tx = .free
    let active := ∃ r, t.recordAt i = some r ∧ r.state = .active ∧ (t.ports[p]).tx = .free
    let opened (cls : WindowClass) : CurrentInstance :=
      .window { slot := i, leg := n, b := s.time.b, cls := cls, sent := 0, endAt := s.time.now + w.length }
    (active → exec (.windowOpening p (.leg i n)) s =
      .next (settleEgress (t.withPort p { t.ports[p] with current := opened .live }))) ∧
    (¬active → ¬wakes → exec (.windowOpening p (.leg i n)) s =
      .next (settleEgress (t.withPort p { t.ports[p] with current := opened .lent }))) ∧
    (wakes → exec (.windowOpening p (.leg i n)) s =
      .next (settleEgress ((wakeRecord i t).withPort p
        { (wakeRecord i t).ports[p] with current := opened .live })))

/-- Waking (R30): the record is ACTIVE, its wake set empty, the misses of every leg 0, and the owner is handed an ACTIVE
notice with the record's flags, or NOTICE_LOST is set when no non-reply place is free or the owner port is not UP (R43,
R115). -/
def Obligations.WakingMakesTheRecordActive : Prop :=
  ∀ (s : State) (i : Slot) (r : Record), s.recordAt i = some r →
    let woken : Record :=
      { r with
        state := .active
        wake := ⟨false, false⟩
        leg0 := { r.leg0 with misses := 0 }
        leg1 := r.leg1.map fun l => { l with misses := 0 } }
    (s.portUp r.ownerPort = true → (s.ports[r.ownerPort]).nonReplies < 8 →
      wakeRecord i s =
        (s.withRecord i (some woken)).withControl r.ownerPort
          { dest := r.ownerAddr
            cls := .notice (i.val * 32 + (s.slots[i]).reuse.toNat)
            message :=
              .notice .active (i.val * 32 + (s.slots[i]).reuse.toNat) s.time.hypercycle r.flags none }) ∧
    (s.portUp r.ownerPort = false ∨ 8 ≤ (s.ports[r.ownerPort]).nonReplies →
      wakeRecord i s =
        s.withRecord i (some { woken with flags := { r.flags with noticeLost := true } }))

/-- The end of an instance closes it. For the beacon nothing more is done (R141). For a lent instance the report is
ignored and nothing else is done; for one that opened live the late policy of the port is applied to the leg's late
entries, and then the report is handed, delivered when a frame was sent and missed otherwise; a report that finds the
record not ACTIVE is ignored (R25, R135, R145; the policy before the report: assumption 13). -/
def Obligations.WindowEndClosesTheInstance : Prop :=
  ∀ (s : State) (p : Port), s.resetAsserted = false →
    let closed := s.withPort p { s.ports[p] with current := .none }
    let leaves (u : State) : Prop := endInstance p s = u ∧ exec (.windowEnd p) s = .next (settleEgress u)
    (∀ endAt, (s.ports[p]).current = .beacon endAt → endAt ≤ s.time.now → leaves closed) ∧
    ∀ w : WindowInstance, (s.ports[p]).current = .window w → w.endAt ≤ s.time.now →
      (w.cls = .lent → leaves closed) ∧
      (w.cls ≠ .lent → ∀ r, s.recordAt w.slot = some r →
        let queue := (s.slots[w.slot]).queue w.leg
        let held : State := closed.withSlot w.slot
          ((s.slots[w.slot]).withQueue w.leg
            (queue.map fun e => { e with mark := if e.mark = .late then .ready else e.mark }))
        let dropped : State := closed.withSlot w.slot
          (SlotCell.withQueue
            { s.slots[w.slot] with
              record := some
                { r with
                  droppedFrames := satAdd r.droppedFrames ((queue.filter fun e => e.mark == .late).length) } }
            w.leg (queue.filter fun e => e.mark != .late))
        let treated : State := if (s.ports[p]).policy.late = .hold then held else dropped
        leaves (windowReport w.slot w.leg true (decide (0 < w.sent)) treated) ∧
        (r.state ≠ .active → leaves treated))

/-- A counted report of a missed window raises the leg's consecutive misses by one up to 15 and the record's missed
windows by one up to 65,535, and sets MISSED; the other leg, delivered windows and remaining count stay (R27). It is the
whole effect while some leg is below its port's miss limit (R28). -/
def Obligations.MissedWindowIsCounted : Prop :=
  ∀ (s : State) (i : Slot) (n : LegNo) (r : Record) (l : Leg), s.recordAt i = some r → r.state = .active →
    r.leg n = some l →
    let counted : Leg := { l with misses := min (l.misses + 1) 15 }
    let missed := if r.missedWindows = 65535#16 then 65535#16 else r.missedWindows + 1
    let r' : Record :=
      { r with
        leg0 := if n = .leg0 then counted else r.leg0
        leg1 := if n = .leg1 then some counted else r.leg1
        missedWindows := missed
        flags := { r.flags with missed := true } }
    (∃ r'', (windowReport i n true false s).recordAt i = some r'' ∧ r''.leg n = some counted ∧
      (∀ k, k ≠ n → r''.leg k = r.leg k) ∧ r''.missedWindows = missed ∧ r''.flags.missed = true ∧
      r''.remaining = r.remaining ∧ r''.delivered = r.delivered) ∧
    ((∃ k ∈ r'.legs, k.misses < (s.ports[k.egress]).policy.missLimit) →
      windowReport i n true false s = s.withRecord i (some r'))

/-- A counted report of a delivered window sets the leg's misses to 0; for leg 0 the delivered windows rise by one,
wrapping, and a remaining count falls by one; at 0 the record enters ENDING with COUNT_DONE in the same act (R26). -/
def Obligations.DeliveredWindowIsCounted : Prop :=
  ∀ (s : State) (i : Slot) (r : Record), s.recordAt i = some r → r.state = .active →
    (∀ p : Port, 0 < (s.ports[p]).policy.missLimit) →
    (∀ l, r.leg1 = some l →
      windowReport i .leg1 true true s = s.withRecord i (some { r with leg1 := some { l with misses := 0 } })) ∧
    (r.remaining = none →
      windowReport i .leg0 true true s =
        s.withRecord i (some { r with leg0 := { r.leg0 with misses := 0 }, delivered := r.delivered + 1 })) ∧
    (∀ k, r.remaining = some (k + 2) →
      windowReport i .leg0 true true s =
        s.withRecord i (some
          { r with
            leg0 := { r.leg0 with misses := 0 }, delivered := r.delivered + 1, remaining := some (k + 1) })) ∧
    (r.remaining = some 1 →
      windowReport i .leg0 true true s =
        s.withEnded i .countDone
          { r with leg0 := { r.leg0 with misses := 0 }, delivered := r.delivered + 1, remaining := some 0 } ∧
      ((windowReport i .leg0 true true s).recordAt i = some
        { r with
          leg0 := { r.leg0 with misses := 0 }, delivered := r.delivered + 1, remaining := some 0
          state := .ending, endReason := some .countDone, wake := ⟨false, false⟩
          droppedFrames := satAdd r.droppedFrames ((s.slots[i]).queue0.length + (s.slots[i]).queue1.length) }) ∧
      (((windowReport i .leg0 true true s).slots[i]).queue0 = [] ∧
        ((windowReport i .leg0 true true s).slots[i]).queue1 = []) ∧
      ∀ p : Port, ∀ w ∈ ((windowReport i .leg0 true true s).ports[p]).calendar, ∀ n, w.owner = .leg i n →
        w.retiring = true)

/-- A missed report after which every leg is at or above its port's miss limit makes the record DORMANT: DORMANT_SEEN is
set, the wake set holds the legs whose queues hold a ready frame, the queues are kept, and the owner is handed a DORMANT
notice, or NOTICE_LOST is set when no non-reply place is free or the owner port is not UP (R28, R31, R43, R115). -/
def Obligations.DormancyWhenEveryLegIsAtItsLimit : Prop :=
  ∀ (s : State) (i : Slot) (n : LegNo) (r : Record) (l : Leg), s.recordAt i = some r → r.state = .active →
    r.leg n = some l →
    let counted : Leg := { l with misses := min (l.misses + 1) 15 }
    let leg0 := if n = .leg0 then counted else r.leg0
    let leg1 := if n = .leg1 then some counted else r.leg1
    let flags := { r.flags with missed := true, dormantSeen := true }
    let dormant : Record :=
      { r with
        leg0 := leg0, leg1 := leg1, state := .dormant, flags := flags
        missedWindows := if r.missedWindows = 65535#16 then 65535#16 else r.missedWindows + 1
        wake :=
          { leg0 := (s.slots[i]).queue0.any fun e => e.mark != .waiting
            leg1 := leg1.isSome && (s.slots[i]).queue1.any fun e => e.mark != .waiting } }
    (∀ k ∈ leg0 :: leg1.toList, (s.ports[k.egress]).policy.missLimit ≤ k.misses) →
      (s.portUp r.ownerPort = true → (s.ports[r.ownerPort]).nonReplies < 8 →
        windowReport i n true false s =
          (s.withRecord i (some dormant)).withControl r.ownerPort
            { dest := r.ownerAddr
              cls := .notice (i.val * 32 + (s.slots[i]).reuse.toNat)
              message := .notice .dormant (i.val * 32 + (s.slots[i]).reuse.toNat) s.time.hypercycle flags none }) ∧
      (s.portUp r.ownerPort = false ∨ 8 ≤ (s.ports[r.ownerPort]).nonReplies →
        windowReport i n true false s =
          s.withRecord i (some { dormant with flags := { flags with noticeLost := true } }))

/-! ### Motion frames (chapter 06) -/

/-- Readiness is judged once for each frame: late, with LATE and the late-frame count, inside an instance of the leg that
opened live; otherwise on time, its lead lowering the smallest lead; a DORMANT record's leg joins the wake set (R29,
R131, R133, R134). The model's readings: the lead is 0 at the tick of an opening, taken or not (assumption 12); an
instance that was given up since still counts as opened live (assumption 33); readiness taken after its tick is judged
when taken (assumption 37). -/
def Obligations.ReadinessIsOnTimeOrLate : Prop :=
  ∀ (s : State) (i : Slot) (n : LegNo) (r : Record) (l : Leg) (before after : List HoldEntry) (e : HoldEntry),
    s.resetAsserted = false → s.recordAt i = some r → r.leg n = some l →
    (s.slots[i]).queue n = before ++ e :: after → (∀ x ∈ before, x.mark ≠ .waiting) → e.mark = .waiting →
    e.readyAt ≤ s.time.now →
    let insideLive := ∃ w, (s.ports[l.egress]).current = .window w ∧ w.slot = i ∧ w.leg = n ∧ w.cls ≠ .lent
    let lead := distanceTo s.cycleTicks r.rate r.phase l.offset s.time.b s.time.tick
    let onTime : Leg :=
      { l with
        smallestLead :=
          match l.smallestLead with
          | none => some lead
          | some x => some (min x lead) }
    let wake : WakeSet :=
      { leg0 := r.wake.leg0 || (r.state == .dormant && n == .leg0)
        leg1 := r.wake.leg1 || (r.state == .dormant && n == .leg1) }
    (¬insideLive → exec (.frameReady i n) s = .next (settleEgress (s.withSlot i
      (SlotCell.withQueue
        { s.slots[i] with
          record := some
            { r with
              wake := wake
              leg0 := if n = .leg0 then onTime else r.leg0
              leg1 := if n = .leg1 then some onTime else r.leg1 } } n
        (before ++ { e with mark := .ready } :: after))))) ∧
    (insideLive → exec (.frameReady i n) s = .next (settleEgress (s.withSlot i
      (SlotCell.withQueue
        { s.slots[i] with
          record := some
            { r with
              wake := wake
              flags := { r.flags with late := true }
              lateFrames := if r.lateFrames = 65535#16 then 65535#16 else r.lateFrames + 1 } } n
        (before ++ { e with mark := .late } :: after)))))

/-- The distance to the next opening (R13): it leads to a tick at which the counter equals the offset in an occupied base
cycle, no nearer such tick lies ahead, and it is below 2^k × L. -/
def Obligations.DistanceReachesTheNextOpening : Prop :=
  ∀ (cycleTicks k p o b t : Nat), p < 2 ^ k → o < cycleTicks → t < cycleTicks →
    let d := distanceTo cycleTicks k p o b t
    (t + d) % cycleTicks = o ∧ (b + (t + d) / cycleTicks) % 2 ^ k = p ∧ d < 2 ^ k * cycleTicks ∧
      ∀ d', (t + d') % cycleTicks = o → (b + (t + d') / cycleTicks) % 2 ^ k = p → d ≤ d'

/-- A frame whose last byte arrives on a port that is not UP is discarded unclassified; on an UP port one with a bad FCS,
above 1522 bytes or below 64 is discarded and counted at its arrival port alone, saturating at 65,535 (R122, R123). -/
def Obligations.UnfitFramesAreDiscarded : Prop :=
  ∀ (s : State) (p : Port) (f : Frame),
    (s.portUp p = false → exec (.frameReceived p f) s = .next s) ∧
    (s.resetAsserted = false → s.portUp p = true → (goodFcs f = false ∨ 1522 < f.length ∨ f.length < 64) →
      exec (.frameReceived p f) s = .next (settleEgress (s.withPort p
        { s.ports[p] with
          receiveErrors :=
            if (s.ports[p]).receiveErrors = 65535#16 then 65535#16 else (s.ports[p]).receiveErrors + 1 })))

/-- A motion frame that fails the stream check is a stray: it is discarded, counted at its arrival port alone, saturating
at 65,535, and no record hears of it (R126, R127). -/
def Obligations.StraysAreCountedAndDiscarded : Prop :=
  ∀ (s : State) (p : Port) (f : Frame), s.resetAsserted = false → s.portUp p = true → goodFcs f = true →
    64 ≤ f.length → f.length ≤ 1522 → etherTypeOf f = 0x9A71 →
    (∀ (i : Slot) (r : Record) (n : LegNo) (l : Leg), streamFieldOf f = i.val * 32 + (s.slots[i]).reuse.toNat →
      s.recordAt i = some r → r.state = .active ∨ r.state = .dormant → r.leg n = some l → l.ingress ≠ p) →
    exec (.frameReceived p f) s = .next (settleEgress (s.withPort p
      { s.ports[p] with
        strays := if (s.ports[p]).strays = 65535#16 then 65535#16 else (s.ports[p]).strays + 1 }))

/-- A motion frame that passes the stream check: oversize, dropped and counted; otherwise appended to its leg's hold
queue of four, waiting, with its ready time 256 ticks ahead; otherwise an overflow, dropped and counted (R40, R126,
R128, R129, R131). -/
def Obligations.AcceptedMotionFramesAreHeld : Prop :=
  ∀ (s : State) (p : Port) (f : Frame) (i : Slot) (r : Record) (n : LegNo) (l : Leg),
    s.resetAsserted = false → s.portUp p = true → goodFcs f = true → 64 ≤ f.length → f.length ≤ 1522 →
    etherTypeOf f = 0x9A71 → streamFieldOf f = i.val * 32 + (s.slots[i]).reuse.toNat → s.recordAt i = some r →
    r.state = .active ∨ r.state = .dormant → r.leg n = some l → l.ingress = p → (n = .leg1 → r.leg0.ingress ≠ p) →
    let dropped := if r.droppedFrames = 65535#16 then 65535#16 else r.droppedFrames + 1
    let entry : HoldEntry := { frame := f, readyAt := s.time.now + 256, mark := .waiting }
    exec (.frameReceived p f) s = .next (settleEgress
      (if l.frameSize < f.length then
        s.withRecord i (some { r with flags := { r.flags with oversize := true }, droppedFrames := dropped })
      else if ((s.slots[i]).queue n).length < 4 then
        s.withSlot i ((s.slots[i]).withQueue n ((s.slots[i]).queue n ++ [entry]))
      else
        s.withRecord i (some { r with flags := { r.flags with overflow := true }, droppedFrames := dropped })))

/-! ### The door (chapter 05) -/

/-- The checks of R101 in order on a control frame taken as a request: STARTING until the end of the settle period is
taken (R9); INVALID for no request kind or a wrong length; NOT_ADMIN for an administrator kind off the administrator
port; BUSY, with phase, kind and tag of the request in hand; NO_MASTER_SLOT for an unknown master and a full table. Each
refusal takes a non-reply place or is dropped, and changes nothing else (R101, R102, R103, R117). The request kinds,
their codes and body lengths are those of the table of R189. -/
def Obligations.DoorRefusesInOrder : Prop :=
  (let code (k : RequestKind) : Nat :=
      match k with
      | .claim => 0x01
      | .release => 0x02
      | .query => 0x03
      | .readCalendar => 0x04
      | .readPort => 0x05
      | .hold => 0x06
      | .resume => 0x07
      | .setPortPolicy => 0x08
      | .setTiming => 0x09
      | .setAge => 0x0A
      | .clearPort => 0x0B
      | .clearCell => 0x0C
    (∀ (n : Nat) (k : RequestKind), requestKindOf n = some k ↔ n = code k) ∧
    (∀ k : RequestKind, k.code = code k ∧ k.bodyLength =
      match k with
      | .claim => 24
      | .setPortPolicy => 8
      | .query => 4
      | .release | .readCalendar | .readPort | .setAge => 2
      | .setTiming | .clearPort => 1
      | .hold | .resume | .clearCell => 0)) ∧
  ∀ (s : State) (p : Port) (f : Frame),
    let refused (st : Status) (body : AnswerBody) : State :=
      s.toldAtDoor p (sourceOf f) (BitVec.ofNat 8 (kindOf f)) (tagOf f) st body
    (0 < s.time.settle ∨ s.time.boundaryDue = .endOfSettle → takeRequest p f s = refused .starting .kindAlone) ∧
    (s.time.settle = 0 → s.time.boundaryDue ≠ .endOfSettle →
      (requestKindOf (kindOf f) = none → takeRequest p f s = refused .invalid .kindAlone) ∧
      ∀ k, requestKindOf (kindOf f) = some k →
        (bodyLengthOf f ≠ k.bodyLength → takeRequest p f s = refused .invalid .kindAlone) ∧
        (bodyLengthOf f = k.bodyLength →
          (k ≠ .claim → k ≠ .release → k ≠ .query → p ≠ s.straps.adm →
            takeRequest p f s = refused .notAdmin .kindAlone) ∧
          (k = .claim ∨ k = .release ∨ (p = s.straps.adm ∧ k ≠ .query ∧ k ≠ .readCalendar ∧ k ≠ .readPort) →
            (∀ (m : MasterIndex) (e : Master) (cr : CurrentRequest), s.masters[m] = some e → e.port = p →
              e.addr = sourceOf f → (∀ j e', s.masters[j] = some e' → e'.port = p → e'.addr = sourceOf f → j = m) →
              e.phase ≠ .idle → e.request = some cr →
              takeRequest p f s = refused .busy (.busy e.phase cr)) ∧
            ((∀ m : MasterIndex, ∃ e, s.masters[m] = some e ∧ ¬(e.port = p ∧ e.addr = sourceOf f)) →
              takeRequest p f s = refused .noMasterSlot .kindAlone))))

/-- A queued request that passes the door joins the tail of the request queue, and its master is QUEUED with its kind and
tag: an IDLE one in its entry, an unknown one in the lowest-numbered free index (R97, R106). The body is read by the table
of R189, a preferred phase or offset not given as 0 (R76). -/
def Obligations.AcceptedRequestsJoinTheQueue : Prop :=
  (∀ f : Frame,
    let number (o n : Nat) : Nat := fieldAt f (20 + o) n
    let option (j : Nat) : Bool := (number 8 1).testBit j
    decodeBody .claim f = .queued (.claim
      { dest := BitVec.ofNat 48 (number 0 6), mode := number 6 1, rate := number 7 1, returnLeg := option 0
        phase := if option 1 then number 9 1 else 0, offset := if option 2 then number 20 4 else 0
        frames0 := number 10 1, frames1 := number 11 1, size0 := number 12 2, size1 := number 14 2
        turnaround := number 16 2, remaining := number 18 2 }) ∧
    decodeBody .release f = .queued (.release (number 0 2)) ∧
    decodeBody .hold f = .queued .hold ∧ decodeBody .resume f = .queued .resume ∧
    decodeBody .setPortPolicy f = .queued (.setPortPolicy (number 0 1) (number 1 1) (number 2 2) (number 4 1)
      (number 5 1) ((number 6 1).testBit 0) (number 7 1)) ∧
    decodeBody .setTiming f = .queued (.setTiming (number 0 1)) ∧
    decodeBody .setAge f = .queued (.setAge (number 0 2)) ∧
    decodeBody .clearPort f = .queued (.clearPort (number 0 1)) ∧
    decodeBody .clearCell f = .queued .clearCell) ∧
  ∀ (s : State) (p : Port) (f : Frame) (k : RequestKind) (body : QueuedBody) (m : MasterIndex),
    s.time.settle = 0 → s.time.boundaryDue ≠ .endOfSettle → requestKindOf (kindOf f) = some k →
    bodyLengthOf f = k.bodyLength → (k = .claim ∨ k = .release ∨ p = s.straps.adm) → decodeBody k f = .queued body →
    let joined (held : Nat) : State :=
      { s with
        masters := s.masters.set m (some
          { port := p, addr := sourceOf f, phase := .queued, held := held, request := some ⟨k, tagOf f⟩
            awaited := none })
        admission :=
          { s.admission with
            queue := s.admission.queue ++ [{ master := m, port := p, addr := sourceOf f, body := body }] } }
    (∀ e, s.masters[m] = some e → e.port = p → e.addr = sourceOf f →
      (∀ j e', s.masters[j] = some e' → e'.port = p → e'.addr = sourceOf f → j = m) → e.phase = .idle →
      e.awaited = none → takeRequest p f s = joined e.held) ∧
    (s.masters[m] = none → (∀ j : MasterIndex, j < m → (s.masters[j]).isSome = true) →
      (∀ (j : MasterIndex) e', s.masters[j] = some e' → ¬(e'.port = p ∧ e'.addr = sourceOf f)) →
      takeRequest p f s = joined 0)

/-- A received control frame is learned and then taken by the conversation unit; one from the device's own or a group
address or of a kind the device sends is then discarded without effect; an immediate request is handed on to be
answered (R100, R124; the model's reading of the order: assumptions 14 and 15). The header's fields and the bodies of
immediate requests stand where chapter 11 puts them, most significant byte first (R189). -/
def Obligations.ControlFramesAreLearnedThenTaken : Prop :=
  (∀ f : Frame,
    let number (o n : Nat) : Nat := ((f.drop o).take n).foldl (fun v x => 256 * v + x.toNat) 0
    (∀ o n, fieldAt f o n = number o n) ∧
    destinationOf f = BitVec.ofNat 48 (number 0 6) ∧ sourceOf f = BitVec.ofNat 48 (number 6 6) ∧
    etherTypeOf f = number 12 2 ∧ kindOf f = number 14 1 ∧ tagOf f = BitVec.ofNat 16 (number 16 2) ∧
    bodyLengthOf f = number 18 2 ∧
    decodeBody .query f = .immediate (.query (number 20 2)
      { late := (number 22 1).testBit 0, missed := (number 22 1).testBit 1, overflow := (number 22 1).testBit 2
        oversize := (number 22 1).testBit 3, dormantSeen := (number 22 1).testBit 4
        noticeLost := (number 22 1).testBit 5 } (number 23 1)) ∧
    decodeBody .readCalendar f = .immediate (.readCalendar (number 20 1) (number 21 1)) ∧
    decodeBody .readPort f = .immediate (.readPort (number 20 1) ((number 21 1).testBit 0))) ∧
  ∀ (s : State) (p : Port) (f : Frame), s.resetAsserted = false → s.portUp p = true → goodFcs f = true →
    64 ≤ f.length → f.length ≤ 1522 → etherTypeOf f = 0x9A72 →
    destinationOf f = s.deviceAddr ∨ destinationOf f = BitVec.allOnes 48 →
    let t := learn p (sourceOf f) s
    (sourceOf f = s.deviceAddr ∨ isGroup (sourceOf f) = true ∨ kindOf f = 0x80 ∨ kindOf f = 0x81 ∨
        kindOf f = 0x82 → exec (.frameReceived p f) s = .next (settleEgress t)) ∧
    (sourceOf f ≠ s.deviceAddr → isGroup (sourceOf f) = false → kindOf f ≠ 0x80 → kindOf f ≠ 0x81 →
      kindOf f ≠ 0x82 → exec (.frameReceived p f) s = .next (settleEgress (takeRequest p f t)) ∧
      ∀ k body, s.time.settle = 0 → s.time.boundaryDue ≠ .endOfSettle → requestKindOf (kindOf f) = some k →
        bodyLengthOf f = k.bodyLength → (k = .query ∨ p = s.straps.adm) → decodeBody k f = .immediate body →
        takeRequest p f t =
          { t with inbox := t.inbox ++ [{ port := p, addr := sourceOf f, tag := tagOf f, body := body }] })

/-! ### Immediate requests (chapters 02, 03, 05, 10 and 11) -/

/-- A QUERY is dropped with no effect without a free non-reply place on an UP port; otherwise a stale number is answered
NO_STREAM, a part the record does not have RANGE naming offset 3, and any other part OK with the record as it stood
before the clear set of its owner was applied (R18, R42, R46, R104, R191). Fields the record does not hold are free values
(assumption 19), three numbers of which the answer uses up. Model's choices: the request waits in a list for its command
(assumption 15), and the answer says that flags were cleared when the owner's clear set names a flag, set or not
(assumption 22). -/
def Obligations.QueryShowsTheRecordThenClears : Prop :=
  ∀ (s : State) (before after : List ImmediateRequest) (rq : ImmediateRequest) (n : Nat) (clear : EventFlags)
    (part : Nat), s.resetAsserted = false → s.inbox = before ++ rq :: after →
    (∀ x ∈ before, ∀ n' c' p', x.body ≠ .query n' c' p') → rq.body = .query n clear part →
    let rest := { s with inbox := before ++ after }
    let told (st : Status) (body : AnswerBody) : State := rest.toldAtDoor rq.port rq.addr 0x03#8 rq.tag st body
    (s.portUp rq.port = false ∨ 8 ≤ (s.ports[rq.port]).nonReplies → exec .query s = .next (settleEgress rest)) ∧
    ((∀ (i : Slot) r, s.recordAt i = some r → i.val * 32 + (s.slots[i]).reuse.toNat ≠ n) →
      exec .query s = .next (settleEgress (told .noStream (.stream n)))) ∧
    ∀ (i : Slot) (r : Record), s.recordAt i = some r → i.val * 32 + (s.slots[i]).reuse.toNat = n →
      (2 < part ∨ (part = 2 ∧ r.leg1 = none) →
        exec .query s = .next (settleEgress (told .range (.failingField 3)))) ∧
      (s.portUp rq.port = true → (s.ports[rq.port]).nonReplies < 8 →
        let owner : Bool := rq.port == r.ownerPort && rq.addr == r.ownerAddr
        let cleared : Bool := owner && (clear.late || clear.missed || clear.overflow || clear.oversize ||
          clear.dormantSeen || clear.noticeLost)
        let flags : EventFlags :=
          { late := r.flags.late && !(owner && clear.late)
            missed := r.flags.missed && !(owner && clear.missed)
            overflow := r.flags.overflow && !(owner && clear.overflow)
            oversize := r.flags.oversize && !(owner && clear.oversize)
            dormantSeen := r.flags.dormantSeen && !(owner && clear.dormantSeen)
            noticeLost := r.flags.noticeLost && !(owner && clear.noticeLost) }
        let answered (body : AnswerBody) : State :=
          ({ rest with freeIndex := s.freeIndex + 3 }.withRecord i (some { r with flags := flags })).withControl rq.port
            { dest := rq.addr, cls := .other, message := .answer 0x03#8 rq.tag .ok body }
        (part = 0 → exec .query s = .next (settleEgress (answered (.queryRecord cleared n r s.freeIndex)))) ∧
        (part = 1 →
          exec .query s = .next (settleEgress (answered (.queryLeg cleared n r .leg0 r.leg0 s.freeIndex)))) ∧
        (∀ l, part = 2 → r.leg1 = some l →
          exec .query s = .next (settleEgress (answered (.queryLeg cleared n r .leg1 l s.freeIndex)))))

/-- READ_CALENDAR answers a port above 7 RANGE, and otherwise a snapshot of the port's calendar with at most two entries
from the first one named (R67, R68, R105, R191): of an installed window its place, its owner (BEACON, or stream and leg),
its retiring mark and its record's state; of a staged leg the same with its PENDING record. The peak load is the greatest
load of any base cycle over the planned view and the installed calendar (R52, R53). Model's choices: the request waits
in a list for its command, which takes the first of its kind (assumption 15), and the leg shown for the beacon window is
0 (assumption 20). -/
def Obligations.ReadCalendarShowsTheCalendar : Prop :=
  (∀ (s : State) (p : Port),
    let load (ws : List Window) (b : Nat) : Nat :=
      ((ws.filter fun w => decide (w.owner ≠ .beacon ∧ b % 2 ^ w.rate = w.phase)).map Window.length).sum
    (∀ ws b, loadOf ws b = load ws b) ∧
    (∀ b < 2 ^ s.time.hExp,
      load (s.planned p) b ≤ s.peakLoad p ∧ load (s.ports[p]).calendar b ≤ s.peakLoad p) ∧
    ∃ b < 2 ^ s.time.hExp, s.peakLoad p = load (s.planned p) b ∨ s.peakLoad p = load (s.ports[p]).calendar b) ∧
  ∀ (s : State) (before after : List ImmediateRequest) (rq : ImmediateRequest) (port first : Nat),
    s.resetAsserted = false → s.inbox = before ++ rq :: after →
    (∀ x ∈ before, ∀ p' f', x.body ≠ .readCalendar p' f') → rq.body = .readCalendar port first →
    let rest := { s with inbox := before ++ after }
    let numberOf (i : Slot) : Nat := i.val * 32 + (s.slots[i]).reuse.toNat
    let installed (w : Window) : CalendarEntry :=
      { offset := w.offset, length := w.length, rate := w.rate, phase := w.phase
        stream :=
          match w.owner with
          | .beacon => none
          | .leg i _ => some (numberOf i)
        leg :=
          match w.owner with
          | .beacon => .leg0
          | .leg _ n => n
        retiring := w.retiring, staged := false
        state :=
          match w.owner with
          | .beacon => none
          | .leg i _ => (s.recordAt i).map Record.state }
    let staged (e : StagedLeg) : CalendarEntry :=
      { offset := e.offset, length := e.length, rate := e.rate, phase := e.phase, stream := some (numberOf e.slot)
        leg := e.leg, retiring := false, staged := true, state := (s.recordAt e.slot).map Record.state }
    let told (st : Status) (body : AnswerBody) : State := rest.toldAtDoor rq.port rq.addr 0x04#8 rq.tag st body
    (7 < port → exec .readCalendar s = .next (settleEgress (told .range (.failingField 0)))) ∧
    ∀ p : Port, p.val = port →
      exec .readCalendar s = .next (settleEgress (told .ok (.calendar
        { port := p, hExp := s.time.hExp, pendingH := s.store.pendingH, freePlaces := 16 - s.store.changeList.length
          generation := s.store.generation, cap := s.cycleTicks * (s.ports[p]).policy.share / 64
          peak := s.peakLoad p, installed := (s.ports[p]).calendar.length
          staged := (s.store.changeList.filter fun e => e.egress == p).length, first := first
          entries :=
            (((s.ports[p]).calendar.map installed ++
              (s.store.changeList.filter fun e => e.egress == p).map staged).drop first).take 2 })))

/-- READ_PORT answers a port above 7 RANGE, and otherwise the port's counters, link and policy as they stand; a clear
asked for sets the three counters to 0 after they have been read, and only when the answer found its place (R105, R138,
R186). Model's choice: the request waits in a list for its command, which takes the first of its kind (assumption 15). -/
def Obligations.ReadPortShowsThenClearsTheCounters : Prop :=
  ∀ (s : State) (before after : List ImmediateRequest) (rq : ImmediateRequest) (port : Nat) (clear : Bool),
    s.resetAsserted = false → s.inbox = before ++ rq :: after →
    (∀ x ∈ before, ∀ p' c', x.body ≠ .readPort p' c') → rq.body = .readPort port clear →
    let rest := { s with inbox := before ++ after }
    let told (u : State) (st : Status) (body : AnswerBody) : State :=
      u.toldAtDoor rq.port rq.addr 0x05#8 rq.tag st body
    (s.portUp rq.port = false ∨ 8 ≤ (s.ports[rq.port]).nonReplies → exec .readPort s = .next (settleEgress rest)) ∧
    (7 < port → exec .readPort s = .next (settleEgress (told rest .range (.failingField 0)))) ∧
    ∀ p : Port, p.val = port → s.portUp rq.port = true → (s.ports[rq.port]).nonReplies < 8 →
      exec .readPort s = .next (settleEgress (told
        (if clear then rest.withPort p { s.ports[p] with receiveErrors := 0, strays := 0, openDrops := 0 } else rest)
        .ok (.portRead
          { port := p, receiveErrors := (s.ports[p]).receiveErrors, strays := (s.ports[p]).strays
            openDrops := (s.ports[p]).openDrops, link := (s.ports[p]).link, policy := (s.ports[p]).policy
            cap := s.cycleTicks * (s.ports[p]).policy.share / 64 })))

/-! ### Claims (chapter 04) -/

/-- The first check of R77 that fails decides a CLAIM: HELD, NOT_PERMITTED, RANGE, UNKNOWN_DEST, SAME_PORT, PORT_DOWN,
QUOTA, TABLE_FULL, TOO_LONG, the end bound of an EXACT offset, the wait for room, NO_ROOM; a claim that passes them all is
granted the lowest FREE slot and the place found (R90). The ranges are those of R76, by the offset of the failing field;
the destination is looked up by R172; the lengths are those of R80 and the caps those of R52. -/
def Obligations.ClaimChecksAreTakenInOrder : Prop :=
  ∀ (s : State) (rq : Request) (c : ClaimFields),
    let held := s.admission.held = true ∨ s.store.pendingH.isSome = true
    let permitted := (s.ports[rq.port]).policy.masterCapable = true ∨ rq.port = s.straps.adm
    (held → s.decideClaim rq c = .refuse .held .kindAlone) ∧
    (¬held → ¬permitted → s.decideClaim rq c = .refuse .notPermitted .kindAlone) ∧
    (¬held → permitted →
      (∀ k, claimRange s.time.hExp s.cycleTicks c = some k →
        s.decideClaim rq c = .refuse .range (.failingField k)) ∧
      (claimRange s.time.hExp s.cycleTicks c = none →
        (s.lookup c.dest rq.addr rq.port = none → s.decideClaim rq c = .refuse .unknownDest .kindAlone) ∧
        (s.lookup c.dest rq.addr rq.port = some rq.port → s.decideClaim rq c = .refuse .samePort .kindAlone) ∧
        ∀ q, s.lookup c.dest rq.addr rq.port = some q → q ≠ rq.port →
          (s.portUp q = false ∨ (c.returnLeg = true ∧ s.portUp rq.port = false) →
            s.decideClaim rq c = .refuse .portDown .kindAlone) ∧
          ∀ (t0 t1 : Speed) (e : Master), s.portSpeed q = some t0 → s.masters[rq.master] = some e →
            (c.returnLeg = true → s.portSpeed rq.port = some t1) →
            let w0 := (c.frames0 * (max c.size0 64 + 20) * ticksPerByte t0 + (s.ports[q]).policy.jitter + 15) / 16 * 16
            let w1 :=
              (c.frames1 * (max c.size1 64 + 20) * ticksPerByte t1 + (s.ports[rq.port]).policy.jitter + 15) / 16 * 16
            let cap0 := s.cycleTicks * (s.ports[q]).policy.share / 64
            let cap1 := s.cycleTicks * (s.ports[rq.port]).policy.share / 64
            let lengths : AnswerBody := .lengths w0 cap0 (if c.returnLeg then some (w1, cap1) else none)
            let tooLong := cap0 < w0 ∨ (c.returnLeg = true ∧ cap1 < w1)
            let pastEnd := c.mode = 1 ∧ s.cycleTicks < c.offset + w0
            let noPlaces := 16 - s.store.changeList.length < if c.returnLeg then 2 else 1
            let found := s.placeClaim c { egress := q, speed := t0, length := w0, cap := cap0 }
              (if c.returnLeg then some { egress := rq.port, speed := t1, length := w1, cap := cap1 } else none)
            ((s.ports[rq.port]).policy.quota ≤ e.held →
              s.decideClaim rq c = .refuse .quota (.quota e.held (s.ports[rq.port]).policy.quota)) ∧
            (e.held < (s.ports[rq.port]).policy.quota →
              ((∀ i : Slot, (s.recordAt i).isSome = true) → s.decideClaim rq c = .refuse .tableFull .kindAlone) ∧
              ∀ i : Slot, s.recordAt i = none →
                (tooLong → s.decideClaim rq c = .refuse .tooLong lengths) ∧
                (¬tooLong → pastEnd → s.decideClaim rq c = .refuse .range (.failingField 20)) ∧
                (¬tooLong → ¬pastEnd → noPlaces → s.decideClaim rq c = .wait) ∧
                (¬tooLong → ¬pastEnd → ¬noPlaces → found = none →
                  s.decideClaim rq c = .refuse .noRoom lengths) ∧
                (¬tooLong → ¬pastEnd → ¬noPlaces → (∀ j : Slot, j < i → (s.recordAt j).isSome = true) →
                  ∀ place, found = some place →
                  s.decideClaim rq c = .grant i { egress := q, speed := t0, length := w0, cap := cap0 }
                    (if c.returnLeg then some { egress := rq.port, speed := t1, length := w1, cap := cap1 } else none)
                    place)))) ∧
    claimRange s.time.hExp s.cycleTicks c =
      (if c.dest.getLsbD 40 = true then some 0 else if c.mode ≠ 0 ∧ c.mode ≠ 1 then some 6
      else if s.time.hExp < c.rate then some 7 else if c.mode = 1 ∧ 2 ^ c.rate ≤ c.phase then some 9
      else if c.mode = 1 ∧ (c.offset % 16 ≠ 0 ∨ s.cycleTicks ≤ c.offset) then some 20
      else if c.size0 < 1 ∨ 1522 < c.size0 then some 12 else if c.frames0 < 1 ∨ 8 < c.frames0 then some 10
      else if c.returnLeg = true ∧ (c.size1 < 1 ∨ 1522 < c.size1) then some 14
      else if c.returnLeg = true ∧ (c.frames1 < 1 ∨ 8 < c.frames1) then some 11
      else if c.returnLeg = true ∧ 65520 < c.turnaround then some 16 else none) ∧
    (c.dest = rq.addr → s.lookup c.dest rq.addr rq.port = some rq.port) ∧
    (c.dest ≠ rq.addr → (∀ j : Place, ∀ e, s.stations[j] = some e → e.addr ≠ c.dest) →
      s.lookup c.dest rq.addr rq.port = none) ∧
    (c.dest ≠ rq.addr → s.AddressesDistinct → ∀ (j : Place) e, s.stations[j] = some e → e.addr = c.dest →
      s.lookup c.dest rq.addr rq.port = some e.port)

/-- A refused CLAIM changes nothing but its place in the queue and the answer it gets; a waiting one changes nothing but
the unit, which takes no request until the switch, after which it is taken up as a new taking (R73, R75, R77, R107). -/
def Obligations.RefusedAndWaitingClaimsChangeNothingElse : Prop :=
  ∀ (s : State) (rq : Request) (c : ClaimFields) (e : Master) (cr : CurrentRequest), s.Takes rq e cr →
    rq.body = .claim c →
    let waiting := { s with admission := { s.admission with waiting := .waiting } }
    let takenUp := { s with admission := { s.admission with waiting := .takeUp } }
    (∀ st body, s.decideClaim rq c = .refuse st body →
      exec .claim s = .next (settleEgress (s.decided.answered rq.master e cr st body)) ∧
      exec .takeUpWaitingClaim takenUp = .next (settleEgress (s.decided.answered rq.master e cr st body))) ∧
    (s.decideClaim rq c = .wait → exec .claim s = .next (settleEgress waiting)) ∧
    (∀ cmd ∈ [Instr.claim, .release, .hold, .resume, .setPortPolicy, .setTiming, .setAge, .clearPort, .clearCell,
        .takeUpWaitingClaim], exec cmd waiting = .next waiting) ∧
    (calendarSwitch waiting).admission = takenUp.admission

/-- The grant is one act (R22, R44, R57, R58, R90, R107, R170): the record PENDING in its slot with the claim's fields, its
legs at the tail of the change list, leg 0 first, the held count and both pins raised, the owner EXECUTING. CLAIM grants
so, and so does TAKE_UP_WAITING_CLAIM. The destination's pin is raised first. An owner's entry on the claim's port is
marked seen and pinned; one on another port moves there, and when it was pinned the move is reported before its new pin
is raised; with none, one is made in the lowest free place, else the lowest neither pinned nor seen, else the lowest
unpinned. (That a moved entry is marked seen is the model's reading: assumption 23.) -/
def Obligations.GrantEntersTheRecordAndStagesItsLegs : Prop :=
  ∀ (s : State) (cmd : Instr) (rq : Request) (c : ClaimFields) (e : Master) (i : Slot) (l0 : LegPlan)
    (ret : Option LegPlan) (place : Placement),
    s.resetAsserted = false → (cmd = .claim ∧ s.admission.waiting = .none) ∨
      (cmd = .takeUpWaitingClaim ∧ s.admission.waiting = .takeUp) →
    s.admission.queue.head? = some rq → rq.body = .claim c → s.masters[rq.master] = some e →
    s.decideClaim rq c = .grant i l0 ret place → s.AddressesDistinct →
    let leg0 : Leg :=
      { ingress := rq.port, egress := l0.egress, frameSize := max c.size0 64, framesPerWindow := c.frames0
        offset := place.offset0, length := l0.length, speed := l0.speed, misses := 0, smallestLead := none }
    let leg1 (l : LegPlan) : Leg :=
      { ingress := l0.egress, egress := l.egress, frameSize := max c.size1 64, framesPerWindow := c.frames1
        offset := place.offset1.getD 0, length := l.length, speed := l.speed, misses := 0, smallestLead := none }
    let staged (l : Leg) (n : LegNo) : StagedLeg :=
      { egress := l.egress, offset := l.offset, length := l.length, rate := c.rate, phase := place.phase, slot := i
        leg := n }
    let record : Record :=
      { state := .pending, owner := rq.master, ownerPort := rq.port, ownerAddr := rq.addr, destAddr := c.dest
        rate := c.rate, phase := place.phase, leg0 := leg0, leg1 := ret.map leg1
        turnaround := ret.map fun _ => (c.turnaround + 15) / 16 * 16
        remaining := if c.remaining = 0 then none else some c.remaining
        flags := ⟨false, false, false, false, false, false⟩, delivered := 0, missedWindows := 0, lateFrames := 0
        droppedFrames := 0, wake := ⟨false, false⟩, endReason := none, waiters := [], firstHypercycle := none }
    let stagedLegs : List StagedLeg :=
      staged leg0 .leg0 ::
        (match ret with
        | none => []
        | some l => [staged (leg1 l) .leg1])
    let taken : State :=
      { s with admission := { s.admission with queue := s.admission.queue.tail, waiting := .none } }
    let pinned : State := pinForGrant rq.port rq.addr c.dest taken
    (exec cmd s = .next (settleEgress
      { pinned with
        slots := pinned.slots.set i { pinned.slots[i] with record := some record, queue0 := [], queue1 := [] }
        store := { pinned.store with changeList := pinned.store.changeList ++ stagedLegs }
        masters := pinned.masters.set rq.master ((pinned.masters[rq.master]).map fun e =>
          { e with held := e.held + 1, phase := .executing, awaited := some (.grant i) }) })) ∧
    ∀ (d : Place) (dst : Station), s.stations[d] = some dst → dst.addr = c.dest →
      let raised := s.stations.set d (some { dst with pins := dst.pins + 1 })
      let made : Station := { addr := rq.addr, port := rq.port, seen := true, pins := 1 }
      (∀ (j : Place) (own : Station), s.stations[j] = some own → own.addr = rq.addr →
        (own.port = rq.port →
          pinned = { taken with
            stations := raised.set j (some { own with seen := true, pins := own.pins + 1 }) } ∧
          exec cmd s = .next (settleEgress
            { s with
              slots := s.slots.set i { s.slots[i] with record := some record, queue0 := [], queue1 := [] }
              store := { s.store with changeList := s.store.changeList ++ stagedLegs }
              masters := s.masters.set rq.master
                (some { e with held := e.held + 1, phase := .executing, awaited := some (.grant i) })
              stations := raised.set j (some { own with seen := true, pins := own.pins + 1 })
              admission := { s.admission with queue := s.admission.queue.tail, waiting := .none } })) ∧
        (own.port ≠ rq.port → own.pins = 0 →
          pinned = { taken with stations := raised.set j (some made) }) ∧
        (own.port ≠ rq.port → 0 < own.pins →
          let moved := stationMoved rq.addr
            { taken with stations := raised.set j (some { own with port := rq.port, seen := true }) }
          pinned = { moved with
            stations := moved.stations.set j ((moved.stations[j]).map fun x => { x with pins := x.pins + 1 }) })) ∧
      ((∀ (j : Place) own, s.stations[j] = some own → own.addr ≠ rq.addr) → ∀ j : Place,
        (raised[j] = none ∧ (∀ k : Place, k < j → (raised[k]).isSome = true)) ∨
          ((∀ k : Place, (raised[k]).isSome = true) ∧
            (∃ x, raised[j] = some x ∧ x.pins = 0 ∧ x.seen = false) ∧
            ∀ k : Place, k < j → ∀ x, raised[k] = some x → ¬(x.pins = 0 ∧ x.seen = false)) ∨
          ((∀ k : Place, ∃ x, raised[k] = some x ∧ ¬(x.pins = 0 ∧ x.seen = false)) ∧
            (∃ x, raised[j] = some x ∧ x.pins = 0) ∧
            ∀ k : Place, k < j → ∀ x, raised[k] = some x → x.pins ≠ 0) →
        pinned = { taken with stations := raised.set j (some made) })

/-- A granted claim takes the lowest FREE slot, and its windows lie where R55 and R83 ask, the return window after the
forward one and the turnaround, on another port and in the same phase, at the lowest offset there (R20, R21,
R83, R87, R88). EXACT mode places leg 0 at the phase and offset claimed (R85). Two windows collide when their intervals
overlap, touching not counted, and some base cycle is in both patterns (R51). -/
def Obligations.GrantedWindowsKeepTheLaws : Prop :=
  (∀ a b : Window, a.phase < 2 ^ a.rate → b.phase < 2 ^ b.rate →
    (collide a b = true ↔ a.offset < b.offset + b.length ∧ b.offset < a.offset + a.length ∧
      ∃ n, n % 2 ^ a.rate = a.phase ∧ n % 2 ^ b.rate = b.phase)) ∧
  ∀ (s : State) (rq : Request) (c : ClaimFields) (i : Slot) (l0 : LegPlan) (ret : Option LegPlan)
    (place : Placement), s.decideClaim rq c = .grant i l0 ret place →
    let fits (l : LegPlan) (n : LegNo) (o : Nat) : Prop :=
      o % 16 = 0 ∧ l.length % 16 = 0 ∧ o + l.length ≤ s.cycleTicks ∧
      (∀ w ∈ s.planned l.egress, collide w
        { offset := o, length := l.length, rate := c.rate, phase := place.phase, owner := .leg i n
          retiring := false } = false) ∧
      (∀ b < 2 ^ s.time.hExp, b % 2 ^ c.rate = place.phase →
        loadOf (s.planned l.egress) b + l.length ≤ s.cycleTicks * (s.ports[l.egress]).policy.share / 64) ∧
      ((s.planned l.egress).filter Window.reserves).length < 32
    (c.mode = 1 → place.phase = c.phase ∧ place.offset0 = c.offset) ∧
      s.recordAt i = none ∧ (∀ j : Slot, j < i → (s.recordAt j).isSome = true) ∧ place.phase < 2 ^ c.rate ∧
      fits l0 .leg0 place.offset0 ∧ (ret.isSome = c.returnLeg) ∧
      ∀ l1, ret = some l1 → ∃ o1, place.offset1 = some o1 ∧ l1.egress ≠ l0.egress ∧
        place.offset0 + l0.length + (c.turnaround + 15) / 16 * 16 ≤ o1 ∧ fits l1 .leg1 o1 ∧
        (∀ o, place.offset0 + l0.length + (c.turnaround + 15) / 16 * 16 ≤ o → o < o1 →
          s.isCandidate l1 c.rate place.phase o = false)

/-- The search of a phase finds the lowest candidate from an offset on, and a search of SEARCH mode that passes its
origin leaves no phase of the rate with a candidate, or, with a return leg, with a candidate that has a return (R83, R84,
R87, R88). The place it finds is the first in the order of R84, from the preference brought into range by R82: phase p0
from o0 on, the later phases, the earlier phases, then phase p0 below o0, and offsets ascending in each. EXACT mode tries
its one candidate alone (R85). A candidate is an offset on the grain within L, on a port with room and cap, that collides
with no window of the planned view (R56, R83). -/
def Obligations.SearchMissesNoPlace : Prop :=
  (∀ (s : State) (l : LegPlan) (k ph o : Nat),
    s.isCandidate l k ph o = true ↔
      ((s.planned l.egress).filter fun w => decide (w.owner ≠ .beacon)).length < 32 ∧
      (∀ b < 2 ^ s.time.hExp, b % 2 ^ k = ph → loadOf (s.planned l.egress) b + l.length ≤ l.cap) ∧
      o % 16 = 0 ∧ o + l.length ≤ s.cycleTicks ∧
      ∀ w ∈ s.planned l.egress, collide w
        { offset := o, length := l.length, rate := k, phase := ph, owner := .beacon, retiring := false } = false) ∧
  (∀ (s : State) (c : ClaimFields) (l0 : LegPlan) (ret : Option LegPlan),
    let gap := (c.turnaround + 15) / 16 * 16
    (c.mode ≠ 1 → s.placeClaim c l0 ret = s.search l0 ret gap c.rate c.phase c.offset) ∧
    (c.mode = 1 → s.placeClaim c l0 ret = none →
      s.isCandidate l0 c.rate c.phase c.offset = true →
      ∃ l1, ret = some l1 ∧
        ∀ o1, c.offset + l0.length + gap ≤ o1 → s.isCandidate l1 c.rate c.phase o1 = false)) ∧
  (∀ (s : State) (l : LegPlan) (k ph lo : Nat),
    (∀ o, s.lowestCandidate l k ph lo = some o → lo ≤ o ∧ s.isCandidate l k ph o = true ∧
      ∀ o', lo ≤ o' → s.isCandidate l k ph o' = true → o ≤ o') ∧
    (s.lowestCandidate l k ph lo = none → ∀ o', lo ≤ o' → s.isCandidate l k ph o' = false)) ∧
  (∀ (s : State) (l0 : LegPlan) (ret : Option LegPlan) (turnaround k p0 o0 : Nat),
    s.search l0 ret turnaround k p0 o0 = none → ∀ ph < 2 ^ k, ∀ o, s.isCandidate l0 k ph o = true →
      ∃ l1, ret = some l1 ∧ ∀ o1, o + l0.length + turnaround ≤ o1 → s.isCandidate l1 k ph o1 = false) ∧
  ∀ (s : State) (l0 : LegPlan) (ret : Option LegPlan) (turnaround k p0 o0 : Nat) (place : Placement),
    s.search l0 ret turnaround k p0 o0 = some place →
    let onGrain := o0 / 16 * 16
    let from0 := if s.cycleTicks < onGrain + l0.length then (s.cycleTicks - l0.length) / 16 * 16 else onGrain
    let first := p0 % 2 ^ k
    let rank (ph o : Nat) : Nat :=
      if ph = first then (if from0 ≤ o then 0 else 2 ^ k) else (ph + 2 ^ k - first) % 2 ^ k
    place.phase < 2 ^ k ∧ s.isCandidate l0 k place.phase place.offset0 = true ∧
    (∀ l1, ret = some l1 → ∃ o1, place.offset1 = some o1 ∧ place.offset0 + l0.length + turnaround ≤ o1 ∧
      s.isCandidate l1 k place.phase o1 = true) ∧
    ∀ ph < 2 ^ k, ∀ o, s.isCandidate l0 k ph o = true →
      rank ph o < rank place.phase place.offset0 ∨
        (rank ph o = rank place.phase place.offset0 ∧ o < place.offset0) →
      ∃ l1, ret = some l1 ∧ ∀ o1, o + l0.length + turnaround ≤ o1 → s.isCandidate l1 k ph o1 = false

/-! ### Releases and the administrator's requests (chapters 04 and 10) -/

/-- The decision of a RELEASE in the order of R92 and by the table of R35: NOT_PERMITTED, NO_STREAM, NOT_OWNER; a standing
record enters ENDING with RELEASED, its windows retiring and lent (R34, R66), an ENDING one keeps its reason, and in both
the sender joins the waiters once; a PENDING one is cancelled, its owner answered CANCELLED (R108), and the sender,
EXECUTING, awaits its answer at the next switch (R109). -/
def Obligations.ReleaseFollowsItsTable : Prop :=
  ∀ (s : State) (rq : Request) (n : Nat) (e : Master) (cr : CurrentRequest), s.Takes rq e cr →
    rq.body = .release n →
    let permitted := (s.ports[rq.port]).policy.masterCapable = true ∨ rq.port = s.straps.adm
    let refused (st : Status) (body : AnswerBody) : State := s.decided.answered rq.master e cr st body
    (¬permitted → exec .release s = .next (settleEgress (refused .notPermitted .kindAlone))) ∧
    (permitted → (∀ (i : Slot) r, s.recordAt i = some r → i.val * 32 + (s.slots[i]).reuse.toNat ≠ n) →
      exec .release s = .next (settleEgress (refused .noStream (.stream n)))) ∧
    ∀ (i : Slot) (r : Record), permitted → s.recordAt i = some r → i.val * 32 + (s.slots[i]).reuse.toNat = n →
      let entitled := (rq.port = r.ownerPort ∧ rq.addr = r.ownerAddr) ∨ rq.port = s.straps.adm
      let waiters := if rq.master ∈ r.waiters then r.waiters else r.waiters ++ [rq.master]
      (¬entitled → exec .release s = .next (settleEgress (refused .notOwner (.stream n)))) ∧
      (entitled → r.state = .ending → exec .release s = .next (settleEgress
        ((s.decided.withRecord i (some { r with waiters := waiters })).withMaster rq.master
          (some { e with phase := .executing, awaited := some (.release i) })))) ∧
      (entitled → r.state = .active ∨ r.state = .dormant ∨ r.state = .suspended →
        exec .release s = .next (settleEgress
          ((s.decided.withEnded i .released { r with waiters := waiters }).withMaster rq.master
            (some { e with phase := .executing, awaited := some (.release i) })))) ∧
      (entitled → r.state = .pending →
        let u := cancelRecord i .released s.decided
        exec .release s = .next (settleEgress
          ({ u with switchAnswers := s.switchAnswers ++ [rq.master] }.withMaster rq.master
            ((u.masters[rq.master]).map fun (x : Master) =>
              { x with phase := .executing, awaited := some (.releasedAtSwitch n) }))) ∧
        u.slots[i] = { reuse := (s.slots[i]).reuse + 1, record := none, queue0 := [], queue1 := [] } ∧
        (∀ j : Slot, j ≠ i → u.slots[j] = s.slots[j]) ∧
        u.store = { s.store with changeList := s.store.changeList.filter fun x => x.slot != i } ∧
        u.admission = s.decided.admission ∧ u.switchAnswers = s.switchAnswers ∧
        (e.phase = .queued → e.awaited = none → ∃ held ≤ e.held, u.masters[rq.master] = some { e with held := held }) ∧
        ∀ x xr, s.masters[r.owner] = some x → x.awaited = some (.grant i) → x.phase = .executing →
          x.request = some xr →
          (s.portUp x.port = true →
            replyTo r.owner x xr .cancelled (.cancelled n .released) ∈ (u.ports[x.port]).controlQueue ∧
            u.masters[r.owner] = some { x with held := x.held - 1, phase := .replyDue, awaited := none }) ∧
          (s.portUp x.port = false →
            u.masters[r.owner] = ({ x with held := x.held - 1, phase := .replyDue } : Master).replyLeft))

/-- HOLD sets and RESUME clears the held flag, each answered OK with it; SET_AGE writes an age period from 10 to 1000,
restarts the sweep count and is answered OK with the sweep period, and any other is refused RANGE (R173, R179, R183,
R187). -/
def Obligations.HoldResumeAndSetAgeActAtOnce : Prop :=
  ∀ (s : State) (rq : Request) (e : Master) (cr : CurrentRequest), s.Takes rq e cr →
    let flagged (held : Bool) : State :=
      ({ s.decided with admission := { s.decided.admission with held := held } }).answered rq.master e cr .ok
        (.heldFlag held)
    (rq.body = .hold → exec .hold s = .next (settleEgress (flagged true))) ∧
    (rq.body = .resume → exec .resume s = .next (settleEgress (flagged false))) ∧
    ∀ seconds, rq.body = .setAge seconds →
      (seconds < 10 ∨ 1000 < seconds →
        exec .setAge s = .next (settleEgress (s.decided.answered rq.master e cr .range (.failingField 0)))) ∧
      (10 ≤ seconds → seconds ≤ 1000 →
        exec .setAge s = .next (settleEgress
          (({ s.decided with ageing := { agePeriod := seconds, sweepCount := 0 } }).answered rq.master e cr .ok
            (.age seconds (seconds * 1000000 / [125, 250, 500, 1000][s.straps.cyc])))))

/-- SET_PORT_POLICY takes its checks in order (NOT_HELD, RANGE by the first field, IN_USE when the new cap is below the
peak load) and otherwise writes all six fields in one act (R180, R187). -/
def Obligations.SetPortPolicyWritesAllSixFieldsOrNone : Prop :=
  ∀ (s : State) (rq : Request) (e : Master) (cr : CurrentRequest) (port share jitter missLimit late : Nat)
    (capable : Bool) (quota : Nat), s.Takes rq e cr →
    rq.body = .setPortPolicy port share jitter missLimit late capable quota →
    let refused (st : Status) (body : AnswerBody) : State := s.decided.answered rq.master e cr st body
    let firstBad : Option Nat :=
      if 7 < port then some 0 else if 48 < share then some 1 else if 1008 < jitter ∨ jitter % 16 ≠ 0 then some 2
      else if missLimit = 0 ∨ 15 < missLimit then some 4 else if 1 < late then some 5
      else if 32 < quota then some 7 else none
    let cap := s.cycleTicks * share / 64
    (s.admission.held = false → exec .setPortPolicy s = .next (settleEgress (refused .notHeld .kindAlone))) ∧
    (s.admission.held = true →
      (∀ k, firstBad = some k → exec .setPortPolicy s = .next (settleEgress (refused .range (.failingField k)))) ∧
      ∀ p : Port, firstBad = none → p.val = port →
        (cap < s.peakLoad p →
          exec .setPortPolicy s = .next (settleEgress (refused .inUse (.policy port cap (s.peakLoad p))))) ∧
        (s.peakLoad p ≤ cap →
          exec .setPortPolicy s = .next (settleEgress ((s.decided.withPort p
            { s.ports[p] with
              policy :=
                { share := share, jitter := jitter, missLimit := missLimit
                  late := if late = 0 then .hold else .drop, masterCapable := capable, quota := quota } }).answered
            rq.master e cr .ok (.policy port cap (s.peakLoad p))))))

/-- SET_TIMING takes its checks in order (NOT_HELD, RANGE, IN_USE while a record is not FREE or a leg is staged) and
otherwise writes the pending H and leaves its sender EXECUTING until the switch (R69, R107, R182, R187). -/
def Obligations.SetTimingWritesThePendingH : Prop :=
  ∀ (s : State) (rq : Request) (e : Master) (cr : CurrentRequest) (h : Nat), s.Takes rq e cr →
    rq.body = .setTiming h →
    let refused (st : Status) (body : AnswerBody) : State := s.decided.answered rq.master e cr st body
    let records := ((List.finRange 128).filter fun i => (s.recordAt i).isSome).length
    (s.admission.held = false → exec .setTiming s = .next (settleEgress (refused .notHeld .kindAlone))) ∧
    (s.admission.held = true → 4 < h →
      exec .setTiming s = .next (settleEgress (refused .range (.failingField 0)))) ∧
    (s.admission.held = true → h ≤ 4 → records ≠ 0 ∨ s.store.changeList ≠ [] →
      exec .setTiming s = .next (settleEgress
        (refused .inUse (.timingInUse records s.store.changeList.length)))) ∧
    (s.admission.held = true → h ≤ 4 → records = 0 → s.store.changeList = [] →
      exec .setTiming s = .next (settleEgress (({ s.decided with
          store := { s.store with pendingH := some h }
          switchAnswers := s.switchAnswers ++ [rq.master] }).withMaster rq.master
        (some { e with phase := .executing, awaited := some .timing }))))

/-- CLEAR_PORT and CLEAR_CELL end or cancel every record they name, which MovesAndClearsEndOrCancelRecords states, and
leave their sender EXECUTING, awaiting CLEARED with the counts of both as they were at execution; a port above 7 is
refused RANGE (R38, R107, R184, R185, R187). Nothing else changes but what ending and cancelling change. The sender's
held count falls only by cancelled records of its own. -/
def Obligations.ClearsReachTheirRecordsAndDeferTheirAnswer : Prop :=
  ∀ (s : State) (rq : Request) (e : Master) (cr : CurrentRequest), s.Takes rq e cr → e.phase = .queued →
    e.awaited = none →
    let counted (f : Record → Bool) : Nat := ((List.finRange 128).filter fun i => (s.recordAt i).any f).length
    let standing (r : Record) : Bool := r.state == .active || r.state == .dormant || r.state == .suspended
    let deferred (target : Option Port) (why : EndReason) (f : Record → Bool) (u : State) : Prop :=
      let ended := endAll f why s.decided
      let answer : Awaited :=
        .cleared target (counted fun r => f r && r.state == .pending) (counted fun r => f r && standing r)
      u = { ended with switchAnswers := s.switchAnswers ++ [rq.master] }.withMaster rq.master
        ((ended.masters[rq.master]).map fun (x : Master) =>
          { x with phase := .executing, awaited := some answer }) ∧
      (∀ i : Slot, u.slots[i] = (endAll f why s).slots[i]) ∧ u.store = (endAll f why s).store ∧
      (∀ p : Port, (u.ports[p]).calendar = ((endAll f why s).ports[p]).calendar) ∧
      (∃ held ≤ e.held, u.masters[rq.master] = some
        { e with phase := .executing, held := held, awaited := some answer } ∧
        ((∀ (i : Slot) r, s.recordAt i = some r → r.state = .pending → r.owner ≠ rq.master) → held = e.held)) ∧
      u.switchAnswers = s.switchAnswers ++ [rq.master] ∧ u.admission = s.decided.admission
    (rq.body = .clearCell → ∃ u, exec .clearCell s = .next (settleEgress u) ∧
      deferred none .cellCleared (fun _ => true) u) ∧
    ∀ port, rq.body = .clearPort port →
      (7 < port →
        exec .clearPort s = .next (settleEgress (s.decided.answered rq.master e cr .range (.failingField 0)))) ∧
      ∀ q : Port, q.val = port → ∃ u, exec .clearPort s = .next (settleEgress u) ∧
        deferred (some q) .portCleared (fun r => r.onPort q) u

/-! ### Frames the device builds (chapter 11) -/

/-- Every reply, notice and beacon is a frame of 64 bytes with a good FCS, from the device's station address to the
address it names, of the control type, with the header of chapter 11, its body and zero padding to byte 59 (R110, R190).
The codes and the bodies are those of the tables of chapter 11 and of R191. The model's readings: the body length leaves
the padding out (assumption 21); the bits that a table leaves unnamed in a byte it names are sent as 0 (assumption 20),
as the whole bytes stated here have them: bits 6 and 7 of a flag byte and of byte 7 of QUERY part 0, bits 3 to 7 of byte
11 of part 1 or 2, and bits 3 and 7 of the last byte of a READ_CALENDAR entry. The bytes of absent fields of a QUERY
answer, and of an absent second leg's window length, are not stated. -/
def Obligations.ControlFramesAreSixtyFourBytes : Prop :=
  (∀ (unit : Fin 16) (dest : Addr) (m : Message), let f := frameOfMessage unit dest m
    f.length = 64 ∧ goodFcs f = true ∧ destinationOf f = dest ∧ sourceOf f = deviceAddress unit ∧
      etherTypeOf f = 0x9A72) ∧
  (∀ (unit : Fin 16) (dest : Addr) (m : Message), let f := frameOfMessage unit dest m
    (f.drop 20).take m.body.length = m.body ∧ m.body.length ≤ 40 ∧ bodyLengthOf f = m.body.length ∧
    (∀ k, 20 + m.body.length ≤ k → k < 60 → f[k]? = some 0) ∧
    match m with
    | .answer kind tag st _ =>
      kindOf f = 0x80 ∧ fieldAt f 15 1 = st.code ∧ tagOf f = tag ∧ bodyHolds f 0 1 kind.toNat
    | .notice .. => kindOf f = 0x81 ∧ fieldAt f 15 1 = 0 ∧ tagOf f = 0
    | .beacon _ => kindOf f = 0x82 ∧ fieldAt f 15 1 = 0 ∧ tagOf f = 0) ∧
  ([Status.ok, .granted, .released, .cancelled, .cleared, .starting, .invalid, .notAdmin, .busy, .noMasterSlot, .held,
      .notPermitted, .range, .unknownDest, .samePort, .portDown, .quota, .tableFull, .tooLong, .noRoom, .noStream,
      .notOwner, .notHeld, .inUse].map Status.code =
    [0x00, 0x01, 0x02, 0x03, 0x04, 0x10, 0x11, 0x12, 0x13, 0x14, 0x20, 0x21, 0x22, 0x23, 0x24, 0x25, 0x26, 0x27, 0x28,
      0x29, 0x2A, 0x2B, 0x2C, 0x2D]) ∧
  ∀ (unit : Fin 16) (dest : Addr),
    let stateNo (r : RecordState) : Nat :=
      match r with
      | .pending => 1
      | .active => 2
      | .dormant => 3
      | .suspended => 4
      | .ending => 5
    let reasonNo (r : EndReason) : Nat :=
      match r with
      | .released => 1
      | .countDone => 2
      | .speedChanged => 3
      | .stationMoved => 4
      | .portCleared => 5
      | .cellCleared => 6
    let speedNo (v : Speed) : Nat := if v = .mb100 then 1 else 2
    let legNo (n : LegNo) : Nat := if n = .leg0 then 0 else 1
    let flagByte (g : EventFlags) : Nat :=
      g.late.toNat + 2 * g.missed.toNat + 4 * g.overflow.toNat + 8 * g.oversize.toNat + 16 * g.dormantSeen.toNat
        + 32 * g.noticeLost.toNat
    (∀ kind tag st (b : AnswerBody), let f := frameOfMessage unit dest (.answer kind tag st b)
      match b with
      | .kindAlone => bodyLengthOf f = 1
      | .failingField offset => bodyLengthOf f = 2 ∧ bodyHolds f 1 1 offset
      | .quota held quota => bodyLengthOf f = 3 ∧ bodyHolds f 1 1 held ∧ bodyHolds f 2 1 quota
      | .lengths w0 cap0 second =>
        bodyLengthOf f = 14 ∧ bodyHolds f 1 1 (if second = none then 1 else 2) ∧ bodyHolds f 2 3 w0 ∧
          bodyHolds f 5 3 cap0 ∧ (second = none → bodyHolds f 11 3 0) ∧
          ∀ w1 cap1, second = some (w1, cap1) → bodyHolds f 8 3 w1 ∧ bodyHolds f 11 3 cap1
      | .cancelled stream cause => bodyLengthOf f = 4 ∧ bodyHolds f 1 2 stream ∧ bodyHolds f 3 1 (reasonNo cause)
      | .stream n => bodyLengthOf f = 3 ∧ bodyHolds f 1 2 n
      | .released stream generation =>
        bodyLengthOf f = 5 ∧ bodyHolds f 1 2 stream ∧ bodyHolds f 3 2 generation.toNat
      | .busy phase request =>
        bodyLengthOf f = 5 ∧
          bodyHolds f 1 1
            (match phase with
              | .idle => 0
              | .queued => 1
              | .executing => 2
              | .replyDue => 3) ∧
          bodyHolds f 2 1 request.kind.code ∧ bodyHolds f 3 2 request.tag.toNat
      | .heldFlag held => bodyLengthOf f = 2 ∧ bodyHolds f 1 1 held.toNat
      | .policy port cap peak =>
        bodyLengthOf f = 8 ∧ bodyHolds f 1 1 port ∧ bodyHolds f 2 3 cap ∧ bodyHolds f 5 3 peak
      | .timingInUse records entries => bodyLengthOf f = 3 ∧ bodyHolds f 1 1 records ∧ bodyHolds f 2 1 entries
      | .timing h generation => bodyLengthOf f = 4 ∧ bodyHolds f 1 1 h ∧ bodyHolds f 2 2 generation.toNat
      | .age seconds sweep => bodyLengthOf f = 6 ∧ bodyHolds f 1 2 seconds ∧ bodyHolds f 3 3 sweep
      | .cleared target cancelled ended generation =>
        bodyLengthOf f = 6 ∧
          bodyHolds f 1 1
            (match target with
              | some p => p.val
              | none => 0xFF) ∧
          bodyHolds f 2 1 cancelled ∧ bodyHolds f 3 1 ended ∧ bodyHolds f 4 2 generation.toNat
      | .portRead r =>
        bodyLengthOf f = 21 ∧ bodyHolds f 1 1 r.port.val ∧ bodyHolds f 2 2 r.receiveErrors.toNat ∧
          bodyHolds f 4 2 r.strays.toNat ∧ bodyHolds f 6 2 r.openDrops.toNat ∧
          (match r.link with
            | .down => bodyHolds f 8 1 0 ∧ bodyHolds f 9 1 0 ∧ bodyHolds f 10 1 0
            | .comingUp good => bodyHolds f 8 1 1 ∧ bodyHolds f 9 1 good ∧ bodyHolds f 10 1 0
            | .up v => bodyHolds f 8 1 2 ∧ bodyHolds f 9 1 0 ∧ bodyHolds f 10 1 (speedNo v)
            | .goingDown v => bodyHolds f 8 1 3 ∧ bodyHolds f 9 1 0 ∧ bodyHolds f 10 1 (speedNo v)
            | .faulted => bodyHolds f 8 1 4 ∧ bodyHolds f 9 1 0 ∧ bodyHolds f 10 1 0) ∧
          bodyHolds f 11 1 r.policy.share ∧ bodyHolds f 12 2 r.policy.jitter ∧ bodyHolds f 14 1 r.policy.missLimit ∧
          bodyHolds f 15 1 (if r.policy.late = .hold then 0 else 1) ∧
          bodyHolds f 16 1 r.policy.masterCapable.toNat ∧ bodyHolds f 17 1 r.policy.quota ∧ bodyHolds f 18 3 r.cap
      | .granted g =>
        let legAt (at_ : Nat) (l : Leg) : Prop :=
          bodyHolds f at_ 1 l.egress.val ∧ bodyHolds f (at_ + 1) 1 g.phase ∧ bodyHolds f (at_ + 2) 3 l.offset ∧
            bodyHolds f (at_ + 5) 3 l.length ∧
            bodyHolds f (at_ + 8) 3 (((l.offset : Int) - 256) % 2 ^ 24).toNat
        bodyLengthOf f = (if g.leg1 = none then 23 else 34) ∧ bodyHolds f 1 1 (stateNo g.state) ∧
          bodyHolds f 2 2 g.stream ∧ bodyHolds f 4 4 g.firstHypercycle.toNat ∧ bodyHolds f 8 2 g.generation.toNat ∧
          bodyHolds f 10 1 g.rate ∧ bodyHolds f 11 1 (if g.leg1 = none then 1 else 2) ∧ legAt 12 g.leg0 ∧
          ∀ l, g.leg1 = some l → legAt 23 l
      | .queryRecord cleared stream r _ =>
        bodyLengthOf f = 38 ∧ bodyHolds f 1 1 cleared.toNat ∧ bodyHolds f 2 2 stream ∧
          bodyHolds f 4 1
            (16 * stateNo r.state +
              match r.endReason with
              | some why => reasonNo why
              | none => 0) ∧
          bodyHolds f 5 1 (flagByte r.flags) ∧ bodyHolds f 6 1 (16 * r.rate + r.phase) ∧
          bodyHolds f 7 1
            (r.ownerPort.val + 8 * r.leg1.isSome.toNat + 16 * r.remaining.isSome.toNat +
              32 * r.firstHypercycle.isSome.toNat) ∧
          bodyHolds f 8 6 r.ownerAddr.toNat ∧ bodyHolds f 14 6 r.destAddr.toNat ∧
          (∀ x, r.turnaround = some x → bodyHolds f 20 2 x) ∧ (∀ x, r.remaining = some x → bodyHolds f 22 2 x) ∧
          (∀ x, r.firstHypercycle = some x → bodyHolds f 24 4 x.toNat) ∧ bodyHolds f 28 4 r.delivered.toNat ∧
          bodyHolds f 32 2 r.missedWindows.toNat ∧ bodyHolds f 34 2 r.lateFrames.toNat ∧
          bodyHolds f 36 2 r.droppedFrames.toNat
      | .queryLeg cleared stream r n l _ =>
        bodyLengthOf f = 23 ∧ bodyHolds f 1 1 cleared.toNat ∧ bodyHolds f 2 2 stream ∧
          bodyHolds f 4 1
            (16 * stateNo r.state +
              match r.endReason with
              | some why => reasonNo why
              | none => 0) ∧
          bodyHolds f 5 1 (flagByte r.flags) ∧ bodyHolds f 6 1 (legNo n + 1) ∧ bodyHolds f 7 1 l.ingress.val ∧
          bodyHolds f 8 1 l.egress.val ∧ bodyHolds f 9 1 l.framesPerWindow ∧ bodyHolds f 10 1 l.misses ∧
          bodyHolds f 11 1 (speedNo l.speed + 4 * l.smallestLead.isSome.toNat) ∧ bodyHolds f 12 2 l.frameSize ∧
          bodyHolds f 14 3 l.offset ∧ bodyHolds f 17 3 l.length ∧ ∀ x, l.smallestLead = some x → bodyHolds f 20 3 x
      | .calendar c =>
        bodyLengthOf f = 17 + 10 * (c.entries.take 2).length ∧ bodyHolds f 1 1 c.port.val ∧ bodyHolds f 2 1 c.hExp ∧
          bodyHolds f 3 1 (c.pendingH.getD 0xFF) ∧ bodyHolds f 4 1 c.freePlaces ∧
          bodyHolds f 5 2 c.generation.toNat ∧ bodyHolds f 7 3 c.cap ∧ bodyHolds f 10 3 c.peak ∧
          bodyHolds f 13 1 c.installed ∧ bodyHolds f 14 1 c.staged ∧ bodyHolds f 15 1 c.first ∧
          bodyHolds f 16 1 c.entries.length ∧
          ∀ k x, k < 2 → c.entries[k]? = some x →
            bodyHolds f (17 + 10 * k) 3 x.offset ∧ bodyHolds f (20 + 10 * k) 3 x.length ∧
              bodyHolds f (23 + 10 * k) 1 (16 * x.rate + x.phase) ∧
              bodyHolds f (24 + 10 * k) 2 (x.stream.getD 0xFFFF) ∧
              bodyHolds f (26 + 10 * k) 1
                (legNo x.leg + 2 * x.retiring.toNat + 4 * x.staged.toNat +
                  16 * match x.state with
                    | some st => stateNo st
                    | none => 0)) ∧
    (∀ (kind : NoticeKind) (stream : Nat) (hypercycle : BitVec 32) (flags : EventFlags)
        (final : Option (EndReason × BitVec 32 × BitVec 16)),
      let f := frameOfMessage unit dest (.notice kind stream hypercycle flags final)
      bodyLengthOf f = 15 ∧
        bodyHolds f 0 1
          (match kind with
            | .dormant => 1
            | .active => 2
            | .suspended => 3
            | .ended => 4) ∧
        bodyHolds f 1 2 stream ∧ bodyHolds f 3 4 hypercycle.toNat ∧ bodyHolds f 7 1 (flagByte flags) ∧
        (final = none → bodyHolds f 8 1 0 ∧ bodyHolds f 9 4 0 ∧ bodyHolds f 13 2 0) ∧
        ∀ why delivered missed, final = some (why, delivered, missed) →
          bodyHolds f 8 1 (reasonNo why) ∧ bodyHolds f 9 4 delivered.toNat ∧ bodyHolds f 13 2 missed.toNat) ∧
    ∀ c : BeaconContent, let f := frameOfMessage unit dest (.beacon c)
      bodyLengthOf f = 11 ∧ bodyHolds f 0 1 c.unit.val ∧ bodyHolds f 1 4 c.hypercycle.toNat ∧
        bodyHolds f 5 2 c.generation.toNat ∧ bodyHolds f 7 1 c.cyc.val ∧ bodyHolds f 8 1 c.hExp ∧
        bodyHolds f 9 1 c.held.toNat ∧ bodyHolds f 10 1 c.queueLength

/-! ### What no command changes -/

/-- The settings of the device change by their own commands alone: the straps at the release of RESET; L so; H and the
generation at a boundary; a link at a sample; a port policy by SET_PORT_POLICY; the held flag by HOLD and RESUME; the age
period by SET_AGE (R2, R3, R6, R63, R74, R156, R183, R188). -/
def Obligations.SettingsChangeByTheirCommandsAlone : Prop :=
  ∀ (c : Instr) (s t : State), exec c s = .next t → (∀ straps, c ≠ .resetReleased straps) →
    t.straps = s.straps ∧
    (c ≠ .endOfSettlePeriod → c ≠ .hypercycleBoundary →
      t.time.hExp = s.time.hExp ∧ t.store.generation = s.store.generation ∧
        t.time.hypercycle = s.time.hypercycle) ∧
    ((∀ lines, c ≠ .baseCycleStart lines) → c ≠ .resetAsserted →
      t.lines = s.lines ∧ ∀ p : Port, (t.ports[p]).link = (s.ports[p]).link) ∧
    (c ≠ .setPortPolicy → ∀ p : Port, (t.ports[p]).policy = (s.ports[p]).policy) ∧
    (c ≠ .hold → c ≠ .resume → t.admission.held = s.admission.held) ∧
    (c ≠ .setAge → t.ageing.agePeriod = s.ageing.agePeriod)

/-- While a record is non-FREE no command changes what the claim and its placement fixed: owner, destination, rate,
phase, turnaround and the claimed fields of its legs (R17, R19, R20). -/
def Obligations.ClaimedFieldsNeverChange : Prop :=
  ∀ (c : Instr) (s t : State) (i : Slot) (r r' : Record), exec c s = .next t → s.recordAt i = some r →
    t.recordAt i = some r' →
    let claimed (l : Leg) := (l.ingress, l.egress, l.frameSize, l.framesPerWindow, l.offset, l.length, l.speed)
    (t.slots[i]).reuse = (s.slots[i]).reuse ∧
    (r'.owner, r'.ownerPort, r'.ownerAddr, r'.destAddr) = (r.owner, r.ownerPort, r.ownerAddr, r.destAddr) ∧
    (r'.rate, r'.phase, r'.turnaround) = (r.rate, r.phase, r.turnaround) ∧
    claimed r'.leg0 = claimed r.leg0 ∧ r'.leg1.map claimed = r.leg1.map claimed

/-- Event flags are sticky: no command but QUERY clears one; the saturating counts of a record never fall, its remaining
count never rises, the smallest lead of neither leg rises and an end reason once taken stays (R26, R34, R42, R133). -/
def Obligations.FlagsAndCountsOnlyAccumulate : Prop :=
  ∀ (c : Instr) (s t : State) (i : Slot) (r r' : Record), exec c s = .next t → s.recordAt i = some r →
    t.recordAt i = some r' →
    (c ≠ .query →
      (r.flags.late = true → r'.flags.late = true) ∧ (r.flags.missed = true → r'.flags.missed = true) ∧
      (r.flags.overflow = true → r'.flags.overflow = true) ∧ (r.flags.oversize = true → r'.flags.oversize = true) ∧
      (r.flags.dormantSeen = true → r'.flags.dormantSeen = true) ∧
      (r.flags.noticeLost = true → r'.flags.noticeLost = true)) ∧
    r.missedWindows ≤ r'.missedWindows ∧ r.lateFrames ≤ r'.lateFrames ∧ r.droppedFrames ≤ r'.droppedFrames ∧
    (r.remaining = none → r'.remaining = none) ∧
    (∀ k, r.remaining = some k → ∃ k' ≤ k, r'.remaining = some k') ∧
    (∀ x, r.leg0.smallestLead = some x → ∃ x' ≤ x, r'.leg0.smallestLead = some x') ∧
    (∀ l x, r.leg1 = some l → l.smallestLead = some x →
      ∃ l', r'.leg1 = some l' ∧ ∃ x' ≤ x, l'.smallestLead = some x') ∧
    (r.state = .ending → r'.state = .ending ∧ r'.endReason = r.endReason)

/-! ### Invariants that every step keeps -/

/-- Every step keeps the time base in its ranges, b within the hypercycle and boundaries at b 0, and holds the links DOWN
and the transmitters FREE while RESET is asserted (R1, R3, R4, R6, R8, R9, R16, R156). -/
def Obligations.TimeBaseStaysSound : Prop :=
  ∀ s t : State, step s = .next t →
    (s.TimeBaseSound → t.TimeBaseSound) ∧ (s.HeldInReset → t.HeldInReset)

/-- Every step keeps in every port calendar exactly one beacon window, of rate H, and the order of offset and phase (R48,
R50). -/
def Obligations.CalendarsStaySound : Prop :=
  ∀ s t : State, s.CalendarsSound → step s = .next t → t.CalendarsSound

/-- Every step keeps the three laws of R55 in every installed calendar and every planned view, the limit of 32
reservation windows, and the fit of windows and staged legs to the reservation table (R48, R49, R55, R56, R57). -/
def Obligations.CalendarLawsStayKept : Prop :=
  ∀ s t : State, s.CalendarsSound → s.TableFits → s.ViewsLawful → step s = .next t → t.TableFits ∧ t.ViewsLawful

/-- Every step keeps every hold queue, open queue and change list within its places, and at most 8 non-reply places taken
on each port (R57, R116, R129, R150). It keeps each reply on a control queue the one reply of its master, which stands in
REPLY_DUE on that port, so that at most 16 reply places and 24 places in all are taken (R99, R116). -/
def Obligations.QueuesStayBounded : Prop :=
  (∀ s t : State, s.QueuesBounded → step s = .next t → t.QueuesBounded) ∧
  (∀ s t : State, s.MastersFit → s.RepliesFit → step s = .next t → t.RepliesFit) ∧
  ∀ s : State, s.QueuesBounded → s.RepliesFit → ∀ p : Port,
    (s.ports[p]).replyMasters.length ≤ 16 ∧ (s.ports[p]).controlFrames.length ≤ 24

/-- Every step keeps each held count equal to the number of records owned, the owners' entries in place, and each queued
request its master's one request in QUEUED, so that the request queue holds at most 16 (R44, R72, R96, R99). It keeps each
pin count equal to the number of records that name the address, with an entry for every address named and no address
twice (R45, R167, R170, R171). -/
def Obligations.HeldCountsStayRight : Prop :=
  (∀ s t : State, s.MastersFit → step s = .next t → t.MastersFit ∧ t.admission.queue.length ≤ 16) ∧
  ∀ s t : State, s.PinsFit → step s = .next t → t.PinsFit

/-- The state after reset meets every one of these invariants. -/
def Obligations.ResetStateIsSound : Prop :=
  State.reset.TimeBaseSound ∧ State.reset.HeldInReset ∧ State.reset.CalendarsSound ∧ State.reset.TableFits ∧
    State.reset.ViewsLawful ∧ State.reset.QueuesBounded ∧ State.reset.MastersFit ∧ State.reset.RepliesFit ∧
    State.reset.PinsFit
end

