-- ==== Sys2Proof/Laws/State.lean ====
section
/-! SUPPORT. One lemma per field of State for each shape of update, and what an updated table reads. -/

namespace Sys2Proof.Machine

variable (s : State)

/-! ### modPort -/

@[simp] theorem State.modPort_pending (p : Port) (f : PortState → PortState) : (s.modPort p f).pending = s.pending := rfl
@[simp] theorem State.modPort_resetAsserted (p : Port) (f : PortState → PortState) : (s.modPort p f).resetAsserted = s.resetAsserted := rfl
@[simp] theorem State.modPort_straps (p : Port) (f : PortState → PortState) : (s.modPort p f).straps = s.straps := rfl
@[simp] theorem State.modPort_lines (p : Port) (f : PortState → PortState) : (s.modPort p f).lines = s.lines := rfl
@[simp] theorem State.modPort_time (p : Port) (f : PortState → PortState) : (s.modPort p f).time = s.time := rfl
@[simp] theorem State.modPort_beacon (p : Port) (f : PortState → PortState) : (s.modPort p f).beacon = s.beacon := rfl
@[simp] theorem State.modPort_slots (p : Port) (f : PortState → PortState) : (s.modPort p f).slots = s.slots := rfl
@[simp] theorem State.modPort_store (p : Port) (f : PortState → PortState) : (s.modPort p f).store = s.store := rfl
@[simp] theorem State.modPort_admission (p : Port) (f : PortState → PortState) : (s.modPort p f).admission = s.admission := rfl
@[simp] theorem State.modPort_masters (p : Port) (f : PortState → PortState) : (s.modPort p f).masters = s.masters := rfl
@[simp] theorem State.modPort_inbox (p : Port) (f : PortState → PortState) : (s.modPort p f).inbox = s.inbox := rfl
@[simp] theorem State.modPort_switchAnswers (p : Port) (f : PortState → PortState) : (s.modPort p f).switchAnswers = s.switchAnswers := rfl
@[simp] theorem State.modPort_stations (p : Port) (f : PortState → PortState) : (s.modPort p f).stations = s.stations := rfl
@[simp] theorem State.modPort_ageing (p : Port) (f : PortState → PortState) : (s.modPort p f).ageing = s.ageing := rfl
@[simp] theorem State.modPort_freeIndex (p : Port) (f : PortState → PortState) : (s.modPort p f).freeIndex = s.freeIndex := rfl

/-! ### modSlot -/

@[simp] theorem State.modSlot_pending (i : Slot) (f : SlotCell → SlotCell) : (s.modSlot i f).pending = s.pending := rfl
@[simp] theorem State.modSlot_resetAsserted (i : Slot) (f : SlotCell → SlotCell) : (s.modSlot i f).resetAsserted = s.resetAsserted := rfl
@[simp] theorem State.modSlot_straps (i : Slot) (f : SlotCell → SlotCell) : (s.modSlot i f).straps = s.straps := rfl
@[simp] theorem State.modSlot_lines (i : Slot) (f : SlotCell → SlotCell) : (s.modSlot i f).lines = s.lines := rfl
@[simp] theorem State.modSlot_time (i : Slot) (f : SlotCell → SlotCell) : (s.modSlot i f).time = s.time := rfl
@[simp] theorem State.modSlot_beacon (i : Slot) (f : SlotCell → SlotCell) : (s.modSlot i f).beacon = s.beacon := rfl
@[simp] theorem State.modSlot_store (i : Slot) (f : SlotCell → SlotCell) : (s.modSlot i f).store = s.store := rfl
@[simp] theorem State.modSlot_admission (i : Slot) (f : SlotCell → SlotCell) : (s.modSlot i f).admission = s.admission := rfl
@[simp] theorem State.modSlot_masters (i : Slot) (f : SlotCell → SlotCell) : (s.modSlot i f).masters = s.masters := rfl
@[simp] theorem State.modSlot_inbox (i : Slot) (f : SlotCell → SlotCell) : (s.modSlot i f).inbox = s.inbox := rfl
@[simp] theorem State.modSlot_switchAnswers (i : Slot) (f : SlotCell → SlotCell) : (s.modSlot i f).switchAnswers = s.switchAnswers := rfl
@[simp] theorem State.modSlot_ports (i : Slot) (f : SlotCell → SlotCell) : (s.modSlot i f).ports = s.ports := rfl
@[simp] theorem State.modSlot_stations (i : Slot) (f : SlotCell → SlotCell) : (s.modSlot i f).stations = s.stations := rfl
@[simp] theorem State.modSlot_ageing (i : Slot) (f : SlotCell → SlotCell) : (s.modSlot i f).ageing = s.ageing := rfl
@[simp] theorem State.modSlot_freeIndex (i : Slot) (f : SlotCell → SlotCell) : (s.modSlot i f).freeIndex = s.freeIndex := rfl

/-! ### modRecord -/

@[simp] theorem State.modRecord_pending (i : Slot) (f : Record → Record) : (s.modRecord i f).pending = s.pending := rfl
@[simp] theorem State.modRecord_resetAsserted (i : Slot) (f : Record → Record) : (s.modRecord i f).resetAsserted = s.resetAsserted := rfl
@[simp] theorem State.modRecord_straps (i : Slot) (f : Record → Record) : (s.modRecord i f).straps = s.straps := rfl
@[simp] theorem State.modRecord_lines (i : Slot) (f : Record → Record) : (s.modRecord i f).lines = s.lines := rfl
@[simp] theorem State.modRecord_time (i : Slot) (f : Record → Record) : (s.modRecord i f).time = s.time := rfl
@[simp] theorem State.modRecord_beacon (i : Slot) (f : Record → Record) : (s.modRecord i f).beacon = s.beacon := rfl
@[simp] theorem State.modRecord_store (i : Slot) (f : Record → Record) : (s.modRecord i f).store = s.store := rfl
@[simp] theorem State.modRecord_admission (i : Slot) (f : Record → Record) : (s.modRecord i f).admission = s.admission := rfl
@[simp] theorem State.modRecord_masters (i : Slot) (f : Record → Record) : (s.modRecord i f).masters = s.masters := rfl
@[simp] theorem State.modRecord_inbox (i : Slot) (f : Record → Record) : (s.modRecord i f).inbox = s.inbox := rfl
@[simp] theorem State.modRecord_switchAnswers (i : Slot) (f : Record → Record) : (s.modRecord i f).switchAnswers = s.switchAnswers := rfl
@[simp] theorem State.modRecord_ports (i : Slot) (f : Record → Record) : (s.modRecord i f).ports = s.ports := rfl
@[simp] theorem State.modRecord_stations (i : Slot) (f : Record → Record) : (s.modRecord i f).stations = s.stations := rfl
@[simp] theorem State.modRecord_ageing (i : Slot) (f : Record → Record) : (s.modRecord i f).ageing = s.ageing := rfl
@[simp] theorem State.modRecord_freeIndex (i : Slot) (f : Record → Record) : (s.modRecord i f).freeIndex = s.freeIndex := rfl

/-! ### modMaster -/

@[simp] theorem State.modMaster_pending (m : MasterIndex) (f : Master → Master) : (s.modMaster m f).pending = s.pending := rfl
@[simp] theorem State.modMaster_resetAsserted (m : MasterIndex) (f : Master → Master) : (s.modMaster m f).resetAsserted = s.resetAsserted := rfl
@[simp] theorem State.modMaster_straps (m : MasterIndex) (f : Master → Master) : (s.modMaster m f).straps = s.straps := rfl
@[simp] theorem State.modMaster_lines (m : MasterIndex) (f : Master → Master) : (s.modMaster m f).lines = s.lines := rfl
@[simp] theorem State.modMaster_time (m : MasterIndex) (f : Master → Master) : (s.modMaster m f).time = s.time := rfl
@[simp] theorem State.modMaster_beacon (m : MasterIndex) (f : Master → Master) : (s.modMaster m f).beacon = s.beacon := rfl
@[simp] theorem State.modMaster_slots (m : MasterIndex) (f : Master → Master) : (s.modMaster m f).slots = s.slots := rfl
@[simp] theorem State.modMaster_store (m : MasterIndex) (f : Master → Master) : (s.modMaster m f).store = s.store := rfl
@[simp] theorem State.modMaster_admission (m : MasterIndex) (f : Master → Master) : (s.modMaster m f).admission = s.admission := rfl
@[simp] theorem State.modMaster_inbox (m : MasterIndex) (f : Master → Master) : (s.modMaster m f).inbox = s.inbox := rfl
@[simp] theorem State.modMaster_switchAnswers (m : MasterIndex) (f : Master → Master) : (s.modMaster m f).switchAnswers = s.switchAnswers := rfl
@[simp] theorem State.modMaster_ports (m : MasterIndex) (f : Master → Master) : (s.modMaster m f).ports = s.ports := rfl
@[simp] theorem State.modMaster_stations (m : MasterIndex) (f : Master → Master) : (s.modMaster m f).stations = s.stations := rfl
@[simp] theorem State.modMaster_ageing (m : MasterIndex) (f : Master → Master) : (s.modMaster m f).ageing = s.ageing := rfl
@[simp] theorem State.modMaster_freeIndex (m : MasterIndex) (f : Master → Master) : (s.modMaster m f).freeIndex = s.freeIndex := rfl

/-! ### putMaster -/

@[simp] theorem State.putMaster_pending (m : MasterIndex) (e : Option Master) : (s.putMaster m e).pending = s.pending := rfl
@[simp] theorem State.putMaster_resetAsserted (m : MasterIndex) (e : Option Master) : (s.putMaster m e).resetAsserted = s.resetAsserted := rfl
@[simp] theorem State.putMaster_straps (m : MasterIndex) (e : Option Master) : (s.putMaster m e).straps = s.straps := rfl
@[simp] theorem State.putMaster_lines (m : MasterIndex) (e : Option Master) : (s.putMaster m e).lines = s.lines := rfl
@[simp] theorem State.putMaster_time (m : MasterIndex) (e : Option Master) : (s.putMaster m e).time = s.time := rfl
@[simp] theorem State.putMaster_beacon (m : MasterIndex) (e : Option Master) : (s.putMaster m e).beacon = s.beacon := rfl
@[simp] theorem State.putMaster_slots (m : MasterIndex) (e : Option Master) : (s.putMaster m e).slots = s.slots := rfl
@[simp] theorem State.putMaster_store (m : MasterIndex) (e : Option Master) : (s.putMaster m e).store = s.store := rfl
@[simp] theorem State.putMaster_admission (m : MasterIndex) (e : Option Master) : (s.putMaster m e).admission = s.admission := rfl
@[simp] theorem State.putMaster_inbox (m : MasterIndex) (e : Option Master) : (s.putMaster m e).inbox = s.inbox := rfl
@[simp] theorem State.putMaster_switchAnswers (m : MasterIndex) (e : Option Master) : (s.putMaster m e).switchAnswers = s.switchAnswers := rfl
@[simp] theorem State.putMaster_ports (m : MasterIndex) (e : Option Master) : (s.putMaster m e).ports = s.ports := rfl
@[simp] theorem State.putMaster_stations (m : MasterIndex) (e : Option Master) : (s.putMaster m e).stations = s.stations := rfl
@[simp] theorem State.putMaster_ageing (m : MasterIndex) (e : Option Master) : (s.putMaster m e).ageing = s.ageing := rfl
@[simp] theorem State.putMaster_freeIndex (m : MasterIndex) (e : Option Master) : (s.putMaster m e).freeIndex = s.freeIndex := rfl

/-! ### putStation -/

@[simp] theorem State.putStation_pending (i : Place) (e : Option Station) : (s.putStation i e).pending = s.pending := rfl
@[simp] theorem State.putStation_resetAsserted (i : Place) (e : Option Station) : (s.putStation i e).resetAsserted = s.resetAsserted := rfl
@[simp] theorem State.putStation_straps (i : Place) (e : Option Station) : (s.putStation i e).straps = s.straps := rfl
@[simp] theorem State.putStation_lines (i : Place) (e : Option Station) : (s.putStation i e).lines = s.lines := rfl
@[simp] theorem State.putStation_time (i : Place) (e : Option Station) : (s.putStation i e).time = s.time := rfl
@[simp] theorem State.putStation_beacon (i : Place) (e : Option Station) : (s.putStation i e).beacon = s.beacon := rfl
@[simp] theorem State.putStation_slots (i : Place) (e : Option Station) : (s.putStation i e).slots = s.slots := rfl
@[simp] theorem State.putStation_store (i : Place) (e : Option Station) : (s.putStation i e).store = s.store := rfl
@[simp] theorem State.putStation_admission (i : Place) (e : Option Station) : (s.putStation i e).admission = s.admission := rfl
@[simp] theorem State.putStation_masters (i : Place) (e : Option Station) : (s.putStation i e).masters = s.masters := rfl
@[simp] theorem State.putStation_inbox (i : Place) (e : Option Station) : (s.putStation i e).inbox = s.inbox := rfl
@[simp] theorem State.putStation_switchAnswers (i : Place) (e : Option Station) : (s.putStation i e).switchAnswers = s.switchAnswers := rfl
@[simp] theorem State.putStation_ports (i : Place) (e : Option Station) : (s.putStation i e).ports = s.ports := rfl
@[simp] theorem State.putStation_ageing (i : Place) (e : Option Station) : (s.putStation i e).ageing = s.ageing := rfl
@[simp] theorem State.putStation_freeIndex (i : Place) (e : Option Station) : (s.putStation i e).freeIndex = s.freeIndex := rfl

/-! ### Reading an updated table -/

theorem State.modPort_get (p q : Port) (f : PortState → PortState) :
    (s.modPort p f).ports[q] = if q = p then f s.ports[p] else s.ports[q] := by
  simp only [State.modPort, Fin.getElem_fin, Vector.getElem_set]
  split
  · next h => rw [if_pos (Fin.ext h.symm)]
  · next h => rw [if_neg fun e => h (by rw [e])]

@[simp] theorem State.modPort_get_self (p : Port) (f : PortState → PortState) :
    (s.modPort p f).ports[p] = f s.ports[p] := by rw [State.modPort_get, if_pos rfl]

theorem State.modPort_get_ne (p q : Port) (f : PortState → PortState) (h : q ≠ p) :
    (s.modPort p f).ports[q] = s.ports[q] := by rw [State.modPort_get, if_neg h]

theorem State.modSlot_get (i j : Slot) (f : SlotCell → SlotCell) :
    (s.modSlot i f).slots[j] = if j = i then f s.slots[i] else s.slots[j] := by
  simp only [State.modSlot, Fin.getElem_fin, Vector.getElem_set]
  split
  · next h => rw [if_pos (Fin.ext h.symm)]
  · next h => rw [if_neg fun e => h (by rw [e])]

@[simp] theorem State.modSlot_get_self (i : Slot) (f : SlotCell → SlotCell) :
    (s.modSlot i f).slots[i] = f s.slots[i] := by rw [State.modSlot_get, if_pos rfl]

theorem State.modSlot_get_ne (i j : Slot) (f : SlotCell → SlotCell) (h : j ≠ i) :
    (s.modSlot i f).slots[j] = s.slots[j] := by rw [State.modSlot_get, if_neg h]

theorem State.modRecord_get (i j : Slot) (f : Record → Record) :
    (s.modRecord i f).slots[j]
      = if j = i then { s.slots[i] with record := (s.slots[i]).record.map f } else s.slots[j] :=
  s.modSlot_get i j _

@[simp] theorem State.modRecord_get_self (i : Slot) (f : Record → Record) :
    (s.modRecord i f).slots[i] = { s.slots[i] with record := (s.slots[i]).record.map f } := s.modSlot_get_self i _

theorem State.modRecord_get_ne (i j : Slot) (f : Record → Record) (h : j ≠ i) :
    (s.modRecord i f).slots[j] = s.slots[j] := s.modSlot_get_ne i j _ h

theorem State.putMaster_get (m k : MasterIndex) (e : Option Master) :
    (s.putMaster m e).masters[k] = if k = m then e else s.masters[k] := by
  simp only [State.putMaster, Fin.getElem_fin, Vector.getElem_set]
  split
  · next h => rw [if_pos (Fin.ext h.symm)]
  · next h => rw [if_neg fun e => h (by rw [e])]

theorem State.modMaster_get (m k : MasterIndex) (f : Master → Master) :
    (s.modMaster m f).masters[k] = if k = m then (s.masters[m]).map f else s.masters[k] :=
  s.putMaster_get m k _

@[simp] theorem State.modMaster_get_self (m : MasterIndex) (f : Master → Master) :
    (s.modMaster m f).masters[m] = (s.masters[m]).map f := by rw [State.modMaster_get, if_pos rfl]

theorem State.modMaster_get_ne (m k : MasterIndex) (f : Master → Master) (h : k ≠ m) :
    (s.modMaster m f).masters[k] = s.masters[k] := by rw [State.modMaster_get, if_neg h]

@[simp] theorem State.putMaster_get_self (m : MasterIndex) (e : Option Master) :
    (s.putMaster m e).masters[m] = e := by rw [State.putMaster_get, if_pos rfl]

theorem State.putMaster_get_ne (m k : MasterIndex) (e : Option Master) (h : k ≠ m) :
    (s.putMaster m e).masters[k] = s.masters[k] := by rw [State.putMaster_get, if_neg h]

theorem State.putStation_get (i j : Place) (e : Option Station) :
    (s.putStation i e).stations[j] = if j = i then e else s.stations[j] := by
  simp only [State.putStation, Fin.getElem_fin, Vector.getElem_set]
  split
  · next h => rw [if_pos (Fin.ext h.symm)]
  · next h => rw [if_neg fun e => h (by rw [e])]

@[simp] theorem State.putStation_get_self (i : Place) (e : Option Station) :
    (s.putStation i e).stations[i] = e := by rw [State.putStation_get, if_pos rfl]

theorem State.putStation_get_ne (i j : Place) (e : Option Station) (h : j ≠ i) :
    (s.putStation i e).stations[j] = s.stations[j] := by rw [State.putStation_get, if_neg h]

end Sys2Proof.Machine
end

