-- ==== Sys2Proof/Laws/Frames.lean ====
section
/-! SUPPORT. What the shared operations leave alone. `Quiet s t` says that `t` differs from `s` only in tables: ports
(but for link state and policy), slots, masters, stations and the change list. One lemma per operation. -/

namespace Sys2Proof.Machine

/-- Everything but the tables is the same, and so are the link state and policy of every port. -/
structure Quiet (s t : State) : Prop where
  pending : t.pending = s.pending
  resetAsserted : t.resetAsserted = s.resetAsserted
  straps : t.straps = s.straps
  lines : t.lines = s.lines
  time : t.time = s.time
  beacon : t.beacon = s.beacon
  admission : t.admission = s.admission
  inbox : t.inbox = s.inbox
  switchAnswers : t.switchAnswers = s.switchAnswers
  ageing : t.ageing = s.ageing
  freeIndex : t.freeIndex = s.freeIndex
  generation : t.store.generation = s.store.generation
  pendingH : t.store.pendingH = s.store.pendingH
  link : ∀ q : Port, (t.ports[q]).link = (s.ports[q]).link
  policy : ∀ q : Port, (t.ports[q]).policy = (s.ports[q]).policy

namespace Quiet

theorem refl (s : State) : Quiet s s :=
  ⟨rfl, rfl, rfl, rfl, rfl, rfl, rfl, rfl, rfl, rfl, rfl, rfl, rfl, fun _ => rfl, fun _ => rfl⟩

theorem trans {s t u : State} (h : Quiet s t) (k : Quiet t u) : Quiet s u where
  pending := k.pending.trans h.pending
  resetAsserted := k.resetAsserted.trans h.resetAsserted
  straps := k.straps.trans h.straps
  lines := k.lines.trans h.lines
  time := k.time.trans h.time
  beacon := k.beacon.trans h.beacon
  admission := k.admission.trans h.admission
  inbox := k.inbox.trans h.inbox
  switchAnswers := k.switchAnswers.trans h.switchAnswers
  ageing := k.ageing.trans h.ageing
  freeIndex := k.freeIndex.trans h.freeIndex
  generation := k.generation.trans h.generation
  pendingH := k.pendingH.trans h.pendingH
  link := fun q => (k.link q).trans (h.link q)
  policy := fun q => (k.policy q).trans (h.policy q)

/-- A change of the tables alone. -/
theorem tables (s : State) (slots masters stations changeList) :
    Quiet s { s with slots := slots, masters := masters, stations := stations,
                     store := { s.store with changeList := changeList } } :=
  ⟨rfl, rfl, rfl, rfl, rfl, rfl, rfl, rfl, rfl, rfl, rfl, rfl, rfl, fun _ => rfl, fun _ => rfl⟩

theorem modPort (s : State) (p : Port) (f : PortState → PortState) (hl : (f s.ports[p]).link = (s.ports[p]).link)
    (hp : (f s.ports[p]).policy = (s.ports[p]).policy) : Quiet s (s.modPort p f) := by
  refine ⟨rfl, rfl, rfl, rfl, rfl, rfl, rfl, rfl, rfl, rfl, rfl, rfl, rfl, fun q => ?_, fun q => ?_⟩
  · rw [State.modPort_get]; split
    · next h => subst h; exact hl
    · rfl
  · rw [State.modPort_get]; split
    · next h => subst h; exact hp
    · rfl

theorem modSlot (s : State) (i : Slot) (f : SlotCell → SlotCell) : Quiet s (s.modSlot i f) :=
  ⟨rfl, rfl, rfl, rfl, rfl, rfl, rfl, rfl, rfl, rfl, rfl, rfl, rfl, fun _ => rfl, fun _ => rfl⟩

theorem modRecord (s : State) (i : Slot) (f : Record → Record) : Quiet s (s.modRecord i f) := modSlot s i _

theorem putMaster (s : State) (m : MasterIndex) (e : Option Master) : Quiet s (s.putMaster m e) :=
  ⟨rfl, rfl, rfl, rfl, rfl, rfl, rfl, rfl, rfl, rfl, rfl, rfl, rfl, fun _ => rfl, fun _ => rfl⟩

theorem modMaster (s : State) (m : MasterIndex) (f : Master → Master) : Quiet s (s.modMaster m f) := putMaster s m _

theorem putStation (s : State) (i : Place) (e : Option Station) : Quiet s (s.putStation i e) :=
  ⟨rfl, rfl, rfl, rfl, rfl, rfl, rfl, rfl, rfl, rfl, rfl, rfl, rfl, fun _ => rfl, fun _ => rfl⟩

theorem foldl {α : Type} (f : State → α → State) (h : ∀ s a, Quiet s (f s a)) (l : List α) (s : State) :
    Quiet s (l.foldl f s) := by
  induction l generalizing s with
  | nil => exact refl s
  | cons a l ih => exact (h s a).trans (ih _)

theorem overPorts (f : Port → State → State) (h : ∀ p s, Quiet s (f p s)) (s : State) :
    Quiet s (Machine.overPorts f s) := foldl _ (fun s p => h p s) _ s

theorem overSlots (f : Slot → State → State) (h : ∀ i s, Quiet s (f i s)) (s : State) :
    Quiet s (Machine.overSlots f s) := foldl _ (fun s p => h p s) _ s

theorem overMasters (f : MasterIndex → State → State) (h : ∀ i s, Quiet s (f i s)) (s : State) :
    Quiet s (Machine.overMasters f s) := foldl _ (fun s p => h p s) _ s

theorem overPlaces (f : Place → State → State) (h : ∀ i s, Quiet s (f i s)) (s : State) :
    Quiet s (Machine.overPlaces f s) := foldl _ (fun s p => h p s) _ s

/-! ### What follows for reads -/

theorem portSpeed {s t : State} (h : Quiet s t) (p : Port) : t.portSpeed p = s.portSpeed p := by
  simp only [State.portSpeed, h.link]

theorem portUp {s t : State} (h : Quiet s t) (p : Port) : t.portUp p = s.portUp p := by
  simp only [State.portUp, h.portSpeed]

theorem cycleTicks {s t : State} (h : Quiet s t) : t.cycleTicks = s.cycleTicks := by
  simp only [State.cycleTicks, h.straps]

theorem cap {s t : State} (h : Quiet s t) (p : Port) : t.cap p = s.cap p := by
  simp only [State.cap, h.cycleTicks, h.policy]

theorem settling {s t : State} (h : Quiet s t) : t.settling = s.settling := by
  simp only [State.settling, h.time]

/-! ### Control queues, masters and notices -/

theorem enqueue (s : State) (p : Port) (f : ControlFrame) : Quiet s (s.enqueue p f) := modPort s p _ rfl rfl

theorem sendNonReply (p : Port) (a : Addr) (m : Message) (s : State) : Quiet s (Machine.sendNonReply p a m s) := by
  unfold Machine.sendNonReply; split
  · exact enqueue ..
  · exact refl s

theorem dropIdleMaster (m : MasterIndex) (s : State) : Quiet s (Machine.dropIdleMaster m s) := by
  unfold Machine.dropIdleMaster; split
  · split
    · exact putMaster ..
    · exact refl s
  · exact refl s

theorem idleMaster (m : MasterIndex) (s : State) : Quiet s (Machine.idleMaster m s) :=
  (modMaster s m _).trans (dropIdleMaster ..)

theorem replyGone (m : MasterIndex) (s : State) : Quiet s (Machine.replyGone m s) := by
  unfold Machine.replyGone; split
  · split
    · exact idleMaster ..
    · exact refl s
  · exact refl s

theorem answerMaster (m : MasterIndex) (st : Status) (body : AnswerBody) (s : State) :
    Quiet s (Machine.answerMaster m st body s) := by
  unfold Machine.answerMaster; split
  · exact refl s
  · split
    · exact refl s
    · split
      · exact (enqueue ..).trans (modMaster ..)
      · exact idleMaster ..

theorem deferMaster (m : MasterIndex) (a : Awaited) (s : State) : Quiet s (Machine.deferMaster m a s) := modMaster ..

theorem raiseHeld (m : MasterIndex) (s : State) : Quiet s (Machine.raiseHeld m s) := modMaster ..

theorem lowerHeld (m : MasterIndex) (s : State) : Quiet s (Machine.lowerHeld m s) :=
  (modMaster s m _).trans (dropIdleMaster ..)

theorem loseNotice (n : Nat) (s : State) : Quiet s (Machine.loseNotice n s) := by
  unfold Machine.loseNotice; split
  · exact modRecord ..
  · exact refl s

theorem handNotice (k : NoticeKind) (i : Slot) (s : State) : Quiet s (Machine.handNotice k i s) := by
  unfold Machine.handNotice; split
  · exact refl s
  · split
    · exact enqueue ..
    · exact modRecord ..

theorem handEnded (n : Nat) (r : Record) (s : State) : Quiet s (Machine.handEnded n r s) := by
  unfold Machine.handEnded; split
  · exact enqueue ..
  · exact refl s

/-! ### Pins and records -/

theorem modStation (a : Addr) (f : Station → Station) (s : State) : Quiet s (Machine.modStation a f s) := by
  unfold Machine.modStation; split
  · exact putStation ..
  · exact refl s

theorem raisePin (a : Addr) (s : State) : Quiet s (Machine.raisePin a s) := modStation ..

theorem lowerPin (a : Addr) (s : State) : Quiet s (Machine.lowerPin a s) := modStation ..

theorem flushQueues (i : Slot) (s : State) : Quiet s (Machine.flushQueues i s) := modSlot ..

theorem markRetiring (i : Slot) (s : State) : Quiet s (Machine.markRetiring i s) :=
  overPorts _ (fun _ s => modPort s _ _ rfl rfl) s

theorem releaseInstances (i : Slot) (s : State) : Quiet s (Machine.releaseInstances i s) :=
  overPorts _ (fun _ s => modPort s _ _ rfl rfl) s

theorem endRecord (i : Slot) (why : EndReason) (s : State) : Quiet s (Machine.endRecord i why s) :=
  (((flushQueues i s).trans (modRecord ..)).trans (markRetiring ..)).trans (releaseInstances ..)

theorem suspendRecord (i : Slot) (s : State) : Quiet s (Machine.suspendRecord i s) :=
  (((flushQueues i s).trans (modRecord ..)).trans (releaseInstances ..)).trans (handNotice ..)

theorem freeRecord (i : Slot) (s : State) : Quiet s (Machine.freeRecord i s) := by
  unfold Machine.freeRecord; split
  · exact refl s
  · exact (((modSlot s i _).trans (lowerHeld ..)).trans (lowerPin ..)).trans (lowerPin ..)

theorem withdraw (i : Slot) (s : State) : Quiet s (Machine.withdraw i s) :=
  ⟨rfl, rfl, rfl, rfl, rfl, rfl, rfl, rfl, rfl, rfl, rfl, rfl, rfl, fun _ => rfl, fun _ => rfl⟩

theorem answerCancelled (i : Slot) (n : Nat) (m : MasterIndex) (c : EndReason) (s : State) :
    Quiet s (Machine.answerCancelled i n m c s) := by
  unfold Machine.answerCancelled; split
  · split
    · exact answerMaster ..
    · exact refl s
  · exact refl s

theorem cancelRecord (i : Slot) (c : EndReason) (s : State) : Quiet s (Machine.cancelRecord i c s) := by
  unfold Machine.cancelRecord; split
  · exact refl s
  · exact ((withdraw i s).trans (freeRecord ..)).trans (answerCancelled ..)

theorem endOrCancel (i : Slot) (c : EndReason) (s : State) : Quiet s (Machine.endOrCancel i c s) := by
  unfold Machine.endOrCancel; split
  · exact refl s
  · split
    · exact cancelRecord ..
    · exact endRecord ..
    · exact endRecord ..
    · exact endRecord ..
    · exact refl s

theorem endAll (f : Record → Bool) (c : EndReason) (s : State) : Quiet s (Machine.endAll f c s) := by
  refine overSlots _ (fun i s => ?_) s
  split
  · split
    · exact endOrCancel ..
    · exact refl s
  · exact refl s

theorem stationMoved (a : Addr) (s : State) : Quiet s (Machine.stationMoved a s) := endAll ..

/-! ### Egress -/

theorem discardControl (f : ControlFrame) (s : State) : Quiet s (Machine.discardControl f s) := by
  unfold Machine.discardControl; split
  · exact replyGone ..
  · exact loseNotice ..
  · exact refl s

theorem flushControl (p : Port) (s : State) : Quiet s (Machine.flushControl p s) :=
  (modPort s p _ rfl rfl).trans (foldl _ (fun s f => discardControl f s) _ _)

theorem testHeads (p : Port) (s : State) : Quiet s (Machine.testHeads p s) := by
  unfold Machine.testHeads; split
  · exact refl s
  · refine Quiet.trans (t := if _ then Machine.flushControl p s else s) ?_ (modPort _ p _ rfl rfl)
    split
    · exact flushControl ..
    · exact refl s

theorem startWindowFrame (p : Port) (sp : Speed) (w : WindowInstance) (s : State) :
    Quiet s (Machine.startWindowFrame p sp w s) := by
  unfold Machine.startWindowFrame; split
  · exact refl s
  · split
    · split
      · exact (modSlot ..).trans (modPort _ p _ rfl rfl)
      · exact refl s
    · exact refl s

theorem startOpenHead (p : Port) (sp : Speed) (s : State) : Quiet s (Machine.startOpenHead p sp s) := by
  unfold Machine.startOpenHead; split
  · split
    · exact modPort s p _ rfl rfl
    · exact refl s
  · exact refl s

theorem startOpenTimeFrame (p : Port) (sp : Speed) (s : State) : Quiet s (Machine.startOpenTimeFrame p sp s) := by
  unfold Machine.startOpenTimeFrame; split
  · split
    · exact modPort s p _ rfl rfl
    · exact startOpenHead ..
  · exact startOpenHead ..

theorem chooseFrame (p : Port) (s : State) : Quiet s (Machine.chooseFrame p s) := by
  unfold Machine.chooseFrame; split
  · split
    · split
      · exact startWindowFrame ..
      · exact startOpenTimeFrame ..
    · exact startOpenTimeFrame ..
    · exact startOpenTimeFrame ..
  · exact refl s

theorem schedulePort (p : Port) (s : State) : Quiet s (Machine.schedulePort p s) :=
  ((testHeads p s).trans (chooseFrame ..)).trans (testHeads ..)

theorem settleEgress (s : State) : Quiet s (Machine.settleEgress s) := overPorts _ (fun p s => schedulePort p s) s

theorem takeOpen_link (ps : PortState) (f : Frame) : (ps.takeOpen f).link = ps.link := by
  unfold PortState.takeOpen; split <;> rfl

theorem takeOpen_policy (ps : PortState) (f : Frame) : (ps.takeOpen f).policy = ps.policy := by
  unfold PortState.takeOpen; split <;> rfl

theorem handOpen (p : Port) (f : Frame) (s : State) : Quiet s (Machine.handOpen p f s) :=
  modPort s p _ (takeOpen_link ..) (takeOpen_policy ..)

theorem endTransmission (p : Port) (s : State) : Quiet s (Machine.endTransmission p s) := by
  unfold Machine.endTransmission; split
  · split
    · exact (modPort s p _ rfl rfl).trans (replyGone ..)
    · exact modPort s p _ rfl rfl
    · exact modPort s p _ rfl rfl
  · exact modPort s p _ rfl rfl

theorem abandonTransmission (p : Port) (s : State) : Quiet s (Machine.abandonTransmission p s) := by
  unfold Machine.abandonTransmission; split
  · exact (modPort s p _ rfl rfl).trans (discardControl ..)
  · exact modPort s p _ rfl rfl

theorem egressLoss (p : Port) (s : State) : Quiet s (Machine.egressLoss p s) :=
  ((abandonTransmission p s).trans (flushControl ..)).trans (modPort _ p _ rfl rfl)

theorem startBeacon (p : Port) (s : State) : Quiet s (Machine.startBeacon p s) := by
  unfold Machine.startBeacon; split
  · exact modPort s p _ rfl rfl
  · exact refl s

/-! ### The reservation table -/

theorem applyLatePolicy (p : Port) (i : Slot) (n : LegNo) (s : State) : Quiet s (Machine.applyLatePolicy p i n s) := by
  unfold Machine.applyLatePolicy; split <;> exact modSlot ..

theorem countDelivered (i : Slot) (n : LegNo) (s : State) : Quiet s (Machine.countDelivered i n s) := by
  unfold Machine.countDelivered; split
  · exact modRecord ..
  · dsimp only
    split
    · split
      · exact (modRecord ..).trans (endRecord ..)
      · exact modRecord ..
    · exact modRecord ..

theorem countMissed (i : Slot) (n : LegNo) (s : State) : Quiet s (Machine.countMissed i n s) := modRecord ..

theorem goDormant (i : Slot) (s : State) : Quiet s (Machine.goDormant i s) := (modSlot s i _).trans (handNotice ..)

theorem testDormancy (i : Slot) (s : State) : Quiet s (Machine.testDormancy i s) := by
  unfold Machine.testDormancy; split
  · split
    · exact goDormant ..
    · exact refl s
  · exact refl s

theorem windowReport (i : Slot) (n : LegNo) (o d : Bool) (s : State) : Quiet s (Machine.windowReport i n o d s) := by
  unfold Machine.windowReport; split
  · exact refl s
  · split
    · refine Quiet.trans (t := if d then Machine.countDelivered i n s else Machine.countMissed i n s) ?_
        (testDormancy ..)
      split
      · exact countDelivered ..
      · exact countMissed ..
    · exact refl s

theorem wakeRecord (i : Slot) (s : State) : Quiet s (Machine.wakeRecord i s) :=
  (modRecord s i _).trans (handNotice ..)

theorem portDepartsFromRecords (p : Port) (s : State) : Quiet s (Machine.portDepartsFromRecords p s) := by
  refine overSlots _ (fun i s => ?_) s
  split
  · split
    · exact suspendRecord ..
    · exact refl s
  · exact refl s

theorem resumeRecord (i : Slot) (s : State) : Quiet s (Machine.resumeRecord i s) :=
  (modRecord s i _).trans (handNotice ..)

theorem portArrivesAtRecords (p : Port) (s : State) : Quiet s (Machine.portArrivesAtRecords p s) := by
  refine overSlots _ (fun i s => ?_) s
  split
  · split
    · split
      · exact endRecord ..
      · split
        · exact resumeRecord ..
        · exact refl s
    · exact refl s
  · exact refl s

theorem answerGranted (i : Slot) (r : Record) (st : RecordState) (s : State) :
    Quiet s (Machine.answerGranted i r st s) := by
  unfold Machine.answerGranted; split
  · split
    · exact answerMaster ..
    · exact refl s
  · exact refl s

theorem installRecord (i : Slot) (s : State) : Quiet s (Machine.installRecord i s) := by
  unfold Machine.installRecord; split
  · exact refl s
  · split
    · dsimp only
      refine Quiet.trans ?_ (answerGranted ..)
      split
      · exact (modRecord ..).trans (endRecord ..)
      · exact modRecord ..
    · exact refl s

theorem answerReleased (i : Slot) (n : Nat) (m : MasterIndex) (s : State) :
    Quiet s (Machine.answerReleased i n m s) := by
  unfold Machine.answerReleased; split
  · split
    · exact answerMaster ..
    · exact refl s
  · exact refl s

theorem freeEnding (i : Slot) (s : State) : Quiet s (Machine.freeEnding i s) := by
  unfold Machine.freeEnding; split
  · exact refl s
  · dsimp only
    have h : ∀ (l : List MasterIndex) (n : Nat),
        Quiet s (l.foldl (fun s m => Machine.answerReleased i n m s) (Machine.freeRecord i s)) := fun l n =>
      (freeRecord i s).trans (foldl _ (fun s m => answerReleased i n m s) l _)
    split
    · exact h ..
    · exact (h ..).trans (handEnded ..)

theorem answerDeferred (m : MasterIndex) (s : State) : Quiet s (Machine.answerDeferred m s) := by
  unfold Machine.answerDeferred
  split
  · exact refl s
  · split <;> first | exact answerMaster .. | exact refl s

/-! ### Stations and links -/

theorem learn (p : Port) (a : Addr) (s : State) : Quiet s (Machine.learn p a s) := by
  unfold Machine.learn; split
  · exact refl s
  · split
    · split
      · exact refl s
      · exact putStation ..
    · split
      · exact refl s
      · dsimp only
        split
        · exact (putStation ..).trans (stationMoved ..)
        · exact putStation ..

theorem pinOwner (p : Port) (a : Addr) (s : State) : Quiet s (Machine.pinOwner p a s) := by
  unfold Machine.pinOwner; split
  · split
    · exact refl s
    · dsimp only
      refine Quiet.trans ?_ (raisePin ..)
      split
      · exact (putStation ..).trans (stationMoved ..)
      · exact putStation ..
  · split
    · exact putStation ..
    · exact refl s

theorem pinForGrant (p : Port) (a d : Addr) (s : State) : Quiet s (Machine.pinForGrant p a d s) :=
  (raisePin d s).trans (pinOwner ..)

theorem flood (p : Port) (f : Frame) (s : State) : Quiet s (Machine.flood p f s) := by
  refine overPorts _ (fun q s => ?_) s
  split
  · exact handOpen ..
  · exact refl s

theorem forward (p : Port) (f : Frame) (s : State) : Quiet s (Machine.forward p f s) := by
  unfold Machine.forward; split
  · exact refl s
  · split
    · exact flood ..
    · split
      · exact flood ..
      · split
        · exact refl s
        · split
          · exact refl s
          · exact handOpen ..

theorem portDepartsFromStations (p : Port) (s : State) : Quiet s (Machine.portDepartsFromStations p s) :=
  overPlaces _ (fun _ _ => putStation ..) s

theorem portDepartsFromMasters (p : Port) (s : State) : Quiet s (Machine.portDepartsFromMasters p s) := by
  refine overMasters _ (fun m s => ?_) s
  split
  · split
    · exact replyGone ..
    · exact refl s
  · exact refl s

theorem portDeparts (p : Port) (s : State) : Quiet s (Machine.portDeparts p s) :=
  (((portDepartsFromRecords p s).trans (egressLoss ..)).trans (portDepartsFromMasters ..)).trans
    (portDepartsFromStations ..)

theorem linkReport (b : Vector PortState 8) (p : Port) (s : State) : Quiet s (Machine.linkReport b p s) := by
  unfold Machine.linkReport; split
  · split
    · exact refl s
    · exact portDeparts ..
  · split
    · exact portArrivesAtRecords ..
    · exact refl s

/-! ### Windows, the door and grants -/

theorem endInstance (p : Port) (s : State) : Quiet s (Machine.endInstance p s) := by
  unfold Machine.endInstance
  dsimp only
  have h : Quiet s (s.modPort p fun ps => { ps with current := .none }) := modPort s p _ rfl rfl
  split
  · exact refl s
  · exact h
  · split
    · exact h.trans (windowReport ..)
    · exact (h.trans (applyLatePolicy ..)).trans (windowReport ..)

theorem clearForOpening (p : Port) (s : State) : Quiet s (Machine.clearForOpening p s) := by
  unfold Machine.clearForOpening
  extract_lets s1
  have h : Quiet s s1 := by
    unfold s1; split
    · exact endTransmission ..
    · exact refl s
  split
  · exact h.trans (endInstance ..)
  · exact h

theorem beginInstance (p : Port) (w : Window) (i : Slot) (n : LegNo) (c : WindowClass) (s : State) :
    Quiet s (Machine.beginInstance p w i n c s) := modPort s p _ rfl rfl

theorem openBeacon (p : Port) (w : Window) (s : State) : Quiet s (Machine.openBeacon p w s) :=
  (modPort s p _ rfl rfl).trans (startBeacon ..)

theorem openReservation (p : Port) (w : Window) (i : Slot) (n : LegNo) (s : State) :
    Quiet s (Machine.openReservation p w i n s) := by
  unfold Machine.openReservation; split
  · exact beginInstance ..
  · split
    · exact beginInstance ..
    · split
      · exact beginInstance ..
      · split
        · exact (wakeRecord ..).trans (beginInstance ..)
        · exact beginInstance ..

theorem openWindow (p : Port) (w : Window) (s : State) : Quiet s (Machine.openWindow p w s) := by
  unfold Machine.openWindow
  dsimp only
  split
  · exact (clearForOpening ..).trans (openBeacon ..)
  · exact (clearForOpening ..).trans (openReservation ..)

theorem becomeReady (i : Slot) (n : LegNo) (s : State) : Quiet s (Machine.becomeReady i n s) := by
  unfold Machine.becomeReady; split
  · exact refl s
  · split
    · exact refl s
    · dsimp only
      split
      · split <;> exact ((modSlot ..).trans (modRecord ..)).trans (modRecord ..)
      · split <;> exact (modSlot ..).trans (modRecord ..)

theorem refuseAtDoor (p : Port) (f : Frame) (st : Status) (b : AnswerBody) (s : State) :
    Quiet s (Machine.refuseAtDoor p f st b s) := sendNonReply ..

theorem answerNow (rq : ImmediateRequest) (k : RequestKind) (st : Status) (b : AnswerBody) (s : State) :
    Quiet s (Machine.answerNow rq k st b s) := sendNonReply ..

theorem acceptMotion (i : Slot) (n : LegNo) (f : Frame) (s : State) : Quiet s (Machine.acceptMotion i n f s) := by
  unfold Machine.acceptMotion; split
  · exact modRecord ..
  · split
    · exact modSlot ..
    · exact modRecord ..

theorem takeMotion (p : Port) (f : Frame) (s : State) : Quiet s (Machine.takeMotion p f s) := by
  unfold Machine.takeMotion; split
  · exact acceptMotion ..
  · exact modPort s p _ rfl rfl

theorem enterRecord (i : Slot) (r : Record) (s : State) : Quiet s (Machine.enterRecord i r s) :=
  ⟨rfl, rfl, rfl, rfl, rfl, rfl, rfl, rfl, rfl, rfl, rfl, rfl, rfl, fun _ => rfl, fun _ => rfl⟩

theorem grantClaim (rq : Request) (c : ClaimFields) (i : Slot) (l0 : LegPlan) (ret : Option LegPlan)
    (place : Placement) (s : State) : Quiet s (Machine.grantClaim rq c i l0 ret place s) :=
  ((pinForGrant ..).trans (enterRecord ..)).trans (deferMaster ..)

theorem joinWaiters (i : Slot) (m : MasterIndex) (s : State) : Quiet s (Machine.joinWaiters i m s) :=
  (modRecord s i _).trans (deferMaster ..)

end Quiet

end Sys2Proof.Machine
end

