-- ==== Sys2Proof/Laws/Walks.lean ====
section
/-! SUPPORT. Walks over the tables: what a walk that changes each place by itself leaves, and the walks of the model
that do so. -/

namespace Sys2Proof.Machine

/-- A fold that changes, at each visit, one place only of a table read by `get`, changes each place visited once. -/
theorem foldl_each {ι α : Type} [DecidableEq ι] (f : ι → State → State) (get : State → ι → α) (g : ι → α → α)
    (self : ∀ i s, get (f i s) i = g i (get s i)) (other : ∀ i j s, j ≠ i → get (f i s) j = get s j)
    (l : List ι) (nodup : l.Nodup) (s : State) (j : ι) :
    get (l.foldl (fun s i => f i s) s) j = if j ∈ l then g j (get s j) else get s j := by
  induction l generalizing s with
  | nil => simp
  | cons i l ih =>
    rw [List.nodup_cons] at nodup
    rw [List.foldl_cons, ih nodup.2]
    by_cases hj : j = i
    · subst hj
      rw [if_neg nodup.1, self, if_pos List.mem_cons_self]
    · rw [other i j s hj]
      simp only [List.mem_cons, hj, false_or]

/-- Every port changed by itself. -/
theorem overPorts_each (g : Port → PortState → PortState) (s : State) (q : Port) :
    (overPorts (fun p s => s.modPort p (g p)) s).ports[q] = g q s.ports[q] := by
  have h := foldl_each (fun (p : Port) s => s.modPort p (g p)) (fun s (q : Port) => s.ports[q]) g
    (fun p s => s.modPort_get_self p _) (fun p q s hq => s.modPort_get_ne p q _ hq) (List.finRange 8)
    (List.nodup_finRange 8) s q
  rw [if_pos (List.mem_finRange q)] at h
  exact h

/-- Every place of the station table changed by itself. -/
theorem overPlaces_each (g : Option Station → Option Station) (s : State) (j : Place) :
    (overPlaces (fun i s => s.putStation i (g s.stations[i])) s).stations[j] = g s.stations[j] := by
  have h := foldl_each (fun (i : Place) s => s.putStation i (g s.stations[i])) (fun s (j : Place) => s.stations[j])
    (fun _ => g) (fun i s => s.putStation_get_self i _) (fun i j s hj => s.putStation_get_ne i j _ hj)
    (List.finRange 256) (List.nodup_finRange 256) s j
  rw [if_pos (List.mem_finRange j)] at h
  exact h

/-- A fold keeps whatever each of its steps keeps. -/
theorem foldl_keeps {α β : Type} (get : State → β) (f : State → α → State) (h : ∀ s a, get (f s a) = get s)
    (l : List α) (s : State) : get (l.foldl f s) = get s := by
  induction l generalizing s with
  | nil => rfl
  | cons a l ih => rw [List.foldl_cons, ih, h]

/-! A walk over the ports keeps a table that each visit keeps. -/

theorem overPorts_slots (f : Port → State → State) (h : ∀ p s, (f p s).slots = s.slots) (s : State) :
    (overPorts f s).slots = s.slots := foldl_keeps State.slots _ (fun s p => h p s) _ s

theorem overPorts_store (f : Port → State → State) (h : ∀ p s, (f p s).store = s.store) (s : State) :
    (overPorts f s).store = s.store := foldl_keeps State.store _ (fun s p => h p s) _ s

theorem overPorts_masters (f : Port → State → State) (h : ∀ p s, (f p s).masters = s.masters) (s : State) :
    (overPorts f s).masters = s.masters := foldl_keeps State.masters _ (fun s p => h p s) _ s

theorem overPorts_stations (f : Port → State → State) (h : ∀ p s, (f p s).stations = s.stations) (s : State) :
    (overPorts f s).stations = s.stations := foldl_keeps State.stations _ (fun s p => h p s) _ s

/-- The retiring mark as R60 sets it. -/
def retireWindow (i : Slot) (w : Window) : Window :=
  match w.owner with
  | .leg j _ => if j = i then { w with retiring := true } else w
  | .beacon => w

theorem markRetiring_port (i : Slot) (s : State) (q : Port) :
    (markRetiring i s).ports[q] = { s.ports[q] with calendar := (s.ports[q]).calendar.map (retireWindow i) } :=
  overPorts_each (fun _ ps => { ps with calendar := ps.calendar.map (retireWindow i) }) s q

theorem releaseInstances_port (i : Slot) (s : State) (q : Port) :
    (releaseInstances i s).ports[q] = { s.ports[q] with current := releaseInstance i (s.ports[q]).current } :=
  overPorts_each (fun _ ps => { ps with current := releaseInstance i ps.current }) s q

@[simp] theorem markRetiring_slots (i : Slot) (s : State) : (markRetiring i s).slots = s.slots := by
  unfold markRetiring; refine overPorts_slots _ (fun _ _ => ?_) s; rfl

@[simp] theorem markRetiring_store (i : Slot) (s : State) : (markRetiring i s).store = s.store := by
  unfold markRetiring; refine overPorts_store _ (fun _ _ => ?_) s; rfl

@[simp] theorem markRetiring_masters (i : Slot) (s : State) : (markRetiring i s).masters = s.masters := by
  unfold markRetiring; refine overPorts_masters _ (fun _ _ => ?_) s; rfl

@[simp] theorem markRetiring_stations (i : Slot) (s : State) : (markRetiring i s).stations = s.stations := by
  unfold markRetiring; refine overPorts_stations _ (fun _ _ => ?_) s; rfl

@[simp] theorem releaseInstances_slots (i : Slot) (s : State) : (releaseInstances i s).slots = s.slots := by
  unfold releaseInstances; refine overPorts_slots _ (fun _ _ => ?_) s; rfl

@[simp] theorem releaseInstances_store (i : Slot) (s : State) : (releaseInstances i s).store = s.store := by
  unfold releaseInstances; refine overPorts_store _ (fun _ _ => ?_) s; rfl

@[simp] theorem releaseInstances_masters (i : Slot) (s : State) : (releaseInstances i s).masters = s.masters := by
  unfold releaseInstances; refine overPorts_masters _ (fun _ _ => ?_) s; rfl

@[simp] theorem releaseInstances_stations (i : Slot) (s : State) : (releaseInstances i s).stations = s.stations := by
  unfold releaseInstances; refine overPorts_stations _ (fun _ _ => ?_) s; rfl

/-- The slots after a record enters ENDING (R34): its own record and queues, and no other slot. -/
theorem endRecord_slot (i j : Slot) (why : EndReason) (s : State) :
    (endRecord i why s).slots[j] =
      if j = i then
        { s.slots[i] with
          record := (s.slots[i]).record.map fun r =>
            { r with
              droppedFrames := satAdd r.droppedFrames ((s.slots[i]).queue0.length + (s.slots[i]).queue1.length)
              state := .ending
              endReason := some why
              wake := .empty }
          queue0 := []
          queue1 := [] }
      else s.slots[j] := by
  unfold endRecord
  rw [releaseInstances_slots, markRetiring_slots, State.modRecord_get]
  split
  · rw [flushQueues, State.modSlot_get_self]
    cases h : (s.slots[i]).record <;> simp
  · next h => rw [flushQueues, State.modSlot_get_ne _ _ _ _ h]

/-- The ports after a record enters ENDING (R34, R60, R66). -/
theorem endRecord_port (i : Slot) (q : Port) (why : EndReason) (s : State) :
    (endRecord i why s).ports[q] =
      { s.ports[q] with
        calendar := (s.ports[q]).calendar.map (retireWindow i)
        current := releaseInstance i (s.ports[q]).current } := by
  unfold endRecord
  rw [releaseInstances_port, markRetiring_port]
  rfl

end Sys2Proof.Machine
end

