-- ==== Sys2Proof/Laws/Answers.lean ====
section
/-! SUPPORT. What the shared operations answer, each in one lemma: searches of the tables, streams, replies, notices,
and the moves of a record, in the terms of Safety.lean that the statements use. -/

namespace Sys2Proof.Machine

/-! ### Searches of the tables -/

/-- The first index found is the one named, when no other meets the test. -/
theorem find_finRange_unique {n : Nat} {f : Fin n → Bool} {i : Fin n} (hi : f i = true) (h : ∀ j, f j = true → j = i) :
    (List.finRange n).find? f = some i := by
  have hs : ((List.finRange n).find? f).isSome = true := List.find?_isSome.2 ⟨i, List.mem_finRange i, hi⟩
  obtain ⟨j, hj⟩ := Option.isSome_iff_exists.1 hs
  rw [hj, h j (List.find?_some hj)]

/-- No index is found exactly when none meets the test. -/
theorem find_finRange_none {n : Nat} {f : Fin n → Bool} : (List.finRange n).find? f = none ↔ ∀ j, f j = false := by
  simp [List.find?_eq_none]

/-- The index found is the lowest that meets the test. -/
theorem find_finRange_lowest {n : Nat} {f : Fin n → Bool} {i : Fin n} :
    (List.finRange n).find? f = some i ↔ f i = true ∧ ∀ j, j < i → f j = false := by
  constructor
  · intro h
    refine ⟨List.find?_some h, fun j hj => ?_⟩
    obtain ⟨_, as, bs, hab, has⟩ := List.find?_eq_some_iff_append.1 h
    have hsorted : (as ++ i :: bs).Pairwise (· < ·) := hab ▸ List.pairwise_lt_finRange n
    have hmem : j ∈ as ++ i :: bs := hab ▸ List.mem_finRange j
    rcases List.mem_append.1 hmem with hj' | hj'
    · simpa using has j hj'
    · rcases List.mem_cons.1 hj' with rfl | hj''
      · exact absurd hj (lt_irrefl _)
      · have := (List.pairwise_cons.1 (List.pairwise_append.1 hsorted).2.1).1 j hj''
        exact absurd hj (not_lt.2 this.le)
  · rintro ⟨hi, hlow⟩
    have hs : ((List.finRange n).find? f).isSome = true := List.find?_isSome.2 ⟨i, List.mem_finRange i, hi⟩
    obtain ⟨j, hj⟩ := Option.isSome_iff_exists.1 hs
    rw [hj]
    obtain ⟨hfj, as, bs, hab, has⟩ := List.find?_eq_some_iff_append.1 hj
    have hsorted : (as ++ j :: bs).Pairwise (· < ·) := hab ▸ List.pairwise_lt_finRange n
    have hmem : i ∈ as ++ j :: bs := hab ▸ List.mem_finRange i
    rcases List.mem_append.1 hmem with hi' | hi'
    · have h1 := has i hi'
      rw [hi] at h1
      cases h1
    · rcases List.mem_cons.1 hi' with rfl | hi''
      · rfl
      · have hlt := (List.pairwise_cons.1 (List.pairwise_append.1 hsorted).2.1).1 i hi''
        have h1 := hlow j hlt
        rw [hfj] at h1
        cases h1

/-- The place of an address that one entry alone holds (R167). -/
theorem State.placeOf_eq {s : State} {a : Addr} {j : Place} {e : Station} (he : s.stations[j] = some e)
    (ha : e.addr = a) (h : ∀ (k : Place) (e' : Station), s.stations[k] = some e' → e'.addr = a → k = j) :
    s.placeOf a = some j := by
  refine find_finRange_unique (by rw [he]; simpa using ha) fun k hk => ?_
  split at hk
  · next e' he' => exact h k e' he' (by simpa using hk)
  · cases hk

/-- An address that no entry holds has no place (R167). -/
theorem State.placeOf_none {s : State} {a : Addr} :
    s.placeOf a = none ↔ ∀ (k : Place) (e : Station), s.stations[k] = some e → e.addr ≠ a := by
  rw [State.placeOf, find_finRange_none]
  refine forall_congr' fun k => ?_
  cases h : s.stations[k] <;> simp

/-- The master of a port and address that one entry alone holds (R96). -/
theorem State.masterOf_eq {s : State} {p : Port} {a : Addr} {m : MasterIndex} {e : Master} (he : s.masters[m] = some e)
    (hp : e.port = p) (ha : e.addr = a)
    (h : ∀ (j : MasterIndex) (e' : Master), s.masters[j] = some e' → e'.port = p → e'.addr = a → j = m) :
    s.masterOf p a = some m := by
  refine find_finRange_unique (by rw [he]; simp [hp, ha]) fun k hk => ?_
  split at hk
  · next e' he' =>
    simp only [Bool.and_eq_true, beq_iff_eq] at hk
    exact h k e' he' hk.1 hk.2
  · cases hk

/-- A port and address that no entry holds is no known master (R96). -/
theorem State.masterOf_none {s : State} {p : Port} {a : Addr} :
    s.masterOf p a = none ↔ ∀ (j : MasterIndex) (e : Master), s.masters[j] = some e → ¬(e.port = p ∧ e.addr = a) := by
  rw [State.masterOf, find_finRange_none]
  refine forall_congr' fun k => ?_
  cases h : s.masters[k] <;> simp

/-- The lowest FREE slot (R21). -/
theorem State.freeSlot_eq {s : State} {i : Slot} :
    s.freeSlot = some i ↔ s.recordAt i = none ∧ ∀ j : Slot, j < i → (s.recordAt j).isSome = true := by
  rw [State.freeSlot, find_finRange_lowest]
  refine and_congr (by simp) (forall_congr' fun j => imp_congr_right fun _ => ?_)
  cases s.recordAt j <;> simp

/-! ### Stream numbers (R17, R18) -/

/-- A stream number resolves to the slot whose record carries it. -/
theorem State.resolve_eq {s : State} {n : Nat} {i : Slot} :
    s.resolve n = some i ↔ (s.recordAt i).isSome = true ∧ i.val * 32 + (s.slots[i]).reuse.toNat = n := by
  have hlt : ∀ j : Slot, (s.slots[j]).reuse.toNat < 32 := fun j => (s.slots[j]).reuse.isLt
  unfold State.resolve
  split
  · next hn =>
    split
    · next hc =>
      simp only [Bool.and_eq_true, beq_iff_eq] at hc
      constructor
      · intro h
        cases h
        exact ⟨hc.1, by have := hc.2; simp only; omega⟩
      · rintro ⟨_, h⟩
        have := hlt i
        congr 1
        exact Fin.ext (by simp only; omega)
    · next hc =>
      constructor
      · intro h
        cases h
      · rintro ⟨hr, h⟩
        have := hlt i
        have hi : i = ⟨n / 32, hn⟩ := Fin.ext (by simp only; omega)
        subst hi
        refine absurd ?_ hc
        rw [hr, Bool.true_and, beq_iff_eq]
        simp only at h
        omega
  · next hn =>
    constructor
    · intro h
      cases h
    · rintro ⟨_, h⟩
      have := hlt i
      have := i.isLt
      exact absurd (by omega) hn

/-- A stale number resolves to no slot. -/
theorem State.resolve_none {s : State} {n : Nat} :
    s.resolve n = none ↔ ∀ (i : Slot) (r : Record), s.recordAt i = some r →
      i.val * 32 + (s.slots[i]).reuse.toNat ≠ n := by
  rw [Option.eq_none_iff_forall_not_mem]
  refine forall_congr' fun i => ?_
  rw [Option.mem_def, State.resolve_eq]
  cases h : s.recordAt i <;> simp

/-! ### Legs and links (R23, R33) -/

theorem State.otherSpeed_iff (s : State) (r : Record) :
    s.otherSpeed r = true ↔ ∃ l ∈ r.legs, ∃ v, s.portSpeed l.egress = some v ∧ v ≠ l.speed := by
  simp only [State.otherSpeed, List.any_eq_true]
  refine exists_congr fun l => and_congr_right fun _ => ?_
  cases s.portSpeed l.egress <;> simp

theorem State.legsUp_iff (s : State) (r : Record) :
    s.legsUp r = true ↔ ∀ l ∈ r.legs, s.portUp l.ingress = true ∧ s.portSpeed l.egress = some l.speed := by
  simp [State.legsUp]

/-! ### Answers and notices -/

/-- The answer to a master's outstanding request (R107, R119). -/
theorem answerMaster_eq {s : State} {m : MasterIndex} {e : Master} {rq : CurrentRequest} (he : s.masters[m] = some e)
    (hr : e.request = some rq) (st : Status) (body : AnswerBody) :
    answerMaster m st body s = s.answered m e rq st body := by
  unfold answerMaster State.answered
  simp only [he, hr]
  split
  · simp [State.withControl, State.withMaster, State.enqueue, State.modPort, State.modMaster, replyTo, he, hr]
  · simp only [idleMaster, dropIdleMaster, State.modMaster, State.withMaster, State.putMaster, he]
    by_cases h : e.held = 0 <;> simp [h]

/-- A master with no outstanding request is answered nothing. -/
theorem answerMaster_none {s : State} {m : MasterIndex} (h : ∀ e, s.masters[m] = some e → e.request = none)
    (st : Status) (body : AnswerBody) : answerMaster m st body s = s := by
  unfold answerMaster
  split
  · rfl
  · next e he => simp [h e he]

/-- The reply of a master in REPLY_DUE is gone (R98, R113, R118, R149). -/
theorem replyGone_eq {s : State} {m : MasterIndex} {e : Master} (he : s.masters[m] = some e)
    (hp : e.phase = .replyDue) :
    replyGone m s =
      s.withMaster m (if e.held = 0 then none else some { e with phase := .idle, request := none, awaited := none }) := by
  simp only [replyGone, he, hp, if_true, idleMaster, dropIdleMaster, State.modMaster, State.withMaster, State.putMaster]
  by_cases h : e.held = 0 <;> simp [h]

/-- A reply that is gone leaves its master's entry as `Master.replyLeft` says, in any phase. -/
theorem replyGone_eq_left {s : State} {m : MasterIndex} {e : Master} (he : s.masters[m] = some e) :
    replyGone m s = s.withMaster m e.replyLeft := by
  by_cases hp : e.phase = .replyDue
  · rw [replyGone_eq he hp, Master.replyLeft, if_pos hp]
  · have hs : s.masters.set m (some e) = s.masters := by
      refine Vector.ext fun j hj => ?_
      rw [Vector.getElem_set]
      split
      · next h => subst h; exact he.symm
      · rfl
    simp only [replyGone, he, if_neg hp, Master.replyLeft, State.withMaster, hs]

/-- A non-reply frame is queued, or dropped (R101, R117). -/
theorem sendNonReply_eq (s : State) (p : Port) (dest : Addr) (kind : Byte) (tag : BitVec 16) (st : Status)
    (body : AnswerBody) :
    sendNonReply p dest (.answer kind tag st body) s = s.toldAtDoor p dest kind tag st body := by
  simp [sendNonReply, State.toldAtDoor, State.nonReplyFree, State.withControl, State.enqueue, State.modPort]

/-- A notice that finds its place (R114, R115). -/
theorem handNotice_queued {s : State} {i : Slot} {r : Record} (hr : s.recordAt i = some r) (k : NoticeKind)
    (hu : s.portUp r.ownerPort = true) (hn : (s.ports[r.ownerPort]).nonReplies < 8) :
    handNotice k i s = s.withControl r.ownerPort
      { dest := r.ownerAddr, cls := .notice (s.streamOf i)
        message := .notice k (s.streamOf i) s.time.hypercycle r.flags none } := by
  have hf : s.nonReplyFree r.ownerPort = true := by
    simp only [State.nonReplyFree, hu, Bool.true_and, decide_eq_true_eq]
    exact hn
  simp only [handNotice, hr, hf, if_true]
  rfl

/-- A notice that finds none sets NOTICE_LOST (R43). -/
theorem handNotice_lost {s : State} {i : Slot} {r : Record} (hr : s.recordAt i = some r) (k : NoticeKind)
    (h : s.portUp r.ownerPort = false ∨ 8 ≤ (s.ports[r.ownerPort]).nonReplies) :
    handNotice k i s = s.withRecord i (some { r with flags := { r.flags with noticeLost := true } }) := by
  have hf : s.nonReplyFree r.ownerPort = false := by
    simp only [State.nonReplyFree, Bool.and_eq_false_iff, decide_eq_false_iff_not, not_lt]
    exact h
  have hc : (s.slots[i.val]).record = some r := hr
  simp only [handNotice, hr, hf]
  simp [State.withRecord, State.modRecord, State.modSlot, hc]

/-! ### Requests the admission unit takes -/

/-- The unit takes the head of the queue (R73). -/
theorem State.Takes.headRequest_eq {s : State} {rq : Request} {e : Master} {cr : CurrentRequest} (h : s.Takes rq e cr) :
    s.headRequest = some rq := by
  simp [State.headRequest, h.released, h.unit_free, h.head]

/-- While a claim waits or is to be taken up, no other request is taken (R75). -/
theorem State.headRequest_none {s : State} (h : s.admission.waiting ≠ .none) : s.headRequest = none := by
  simp [State.headRequest, h]

/-- The port whose byte a request carries. -/
theorem portOfNat_eq (p : Port) : portOfNat p.val = some p := by simp [portOfNat]

theorem portOfNat_none {n : Nat} : portOfNat n = none ↔ 7 < n := by
  simp only [portOfNat]
  split
  · next h => simp; omega
  · next h => simp; omega

/-! ### Moves of a record -/

/-- A record that becomes FREE leaves its slot with the next reuse value (R17). -/
theorem freeRecord_slots {s : State} {i : Slot} {r : Record} (hr : s.recordAt i = some r) :
    (freeRecord i s).slots =
      s.slots.set i { reuse := (s.slots[i]).reuse + 1, record := none, queue0 := [], queue1 := [] } := by
  have station : ∀ (a : Addr) (f : Station → Station) (t : State), (modStation a f t).slots = t.slots := by
    intro a f t
    unfold modStation
    split <;> rfl
  have master : ∀ (m : MasterIndex) (t : State), (lowerHeld m t).slots = t.slots := by
    intro m t
    unfold lowerHeld dropIdleMaster
    split
    · split <;> rfl
    · rfl
  simp only [freeRecord, hr, lowerPin, station, master]
  rfl

/-- The record, the queues and the reuse value of a slot whose record ended (R34, R41). -/
@[simp] theorem State.withEnded_slot (s : State) (i : Slot) (why : EndReason) (r : Record) :
    (s.withEnded i why r).slots[i] =
      { s.slots[i] with
        record := some
          { r with
            state := .ending
            endReason := some why
            wake := ⟨false, false⟩
            droppedFrames := satAdd r.droppedFrames ((s.slots[i]).queue0.length + (s.slots[i]).queue1.length) }
        queue0 := []
        queue1 := [] } := by
  simp [State.withEnded, State.withSlot]

@[simp] theorem State.withEnded_other {s : State} {i j : Slot} {why : EndReason} {r : Record} (h : j ≠ i) :
    (s.withEnded i why r).slots[j] = s.slots[j] := by
  have hn : ¬(i.val = j.val) := fun e => h (Fin.ext e.symm)
  simp [State.withEnded, State.withSlot, hn]

/-- The ports after a record ended: retiring marks and lent instances alone (R34, R66). -/
@[simp] theorem State.withEnded_port (s : State) (i : Slot) (q : Port) (why : EndReason) (r : Record) :
    (s.withEnded i why r).ports[q] =
      { s.ports[q] with
        calendar := (s.ports[q]).calendar.map (Window.retiredFor i)
        current := (s.ports[q]).current.givenUpBy i } := by
  simp [State.withEnded]

@[simp] theorem State.withEnded_masters (s : State) (i : Slot) (why : EndReason) (r : Record) :
    (s.withEnded i why r).masters = s.masters := rfl

@[simp] theorem State.withEnded_store (s : State) (i : Slot) (why : EndReason) (r : Record) :
    (s.withEnded i why r).store = s.store := rfl

@[simp] theorem State.withEnded_time (s : State) (i : Slot) (why : EndReason) (r : Record) :
    (s.withEnded i why r).time = s.time := rfl

@[simp] theorem State.withEnded_stations (s : State) (i : Slot) (why : EndReason) (r : Record) :
    (s.withEnded i why r).stations = s.stations := rfl

end Sys2Proof.Machine
end

