-- ==== Sys2Proof/Laws/Clock.lean ====
section
/-! SUPPORT. What the passing of a tick does to the chain of the time base, in the terms of Safety.lean that the
statements use. -/

namespace Sys2Proof.Machine

/-- The base cycle ends here exactly at its last tick with nothing of its first tick left to take. -/
theorem State.atCycleEnd_iff (s : State) : s.atCycleEnd = true ↔ s.AtLastTick := by
  simp [State.atCycleEnd, State.AtLastTick, and_assoc]

/-- The chain at the start of the next base cycle. -/
theorem enterBaseCycle_eq {s : State} (h : s.AtLastTick) : enterBaseCycle s = s.entered := by
  obtain ⟨_, _, hb⟩ := h
  unfold enterBaseCycle State.entered State.settling State.wraps
  rw [hb]
  by_cases h1 : s.time.settle = 1 <;> by_cases h0 : s.time.settle = 0 <;>
    simp [h1, h0, Nat.pos_iff_ne_zero]

/-- A start or boundary that is taken at the last tick enters the base cycle first. -/
theorem State.startReady_of_last {s : State} (h : s.AtLastTick) : s.startReady = s.entered := by
  rw [State.startReady, if_pos ((State.atCycleEnd_iff s).2 h), enterBaseCycle_eq h]

/-- One that has been raised is taken where it stands. -/
theorem State.startReady_of_due {s : State} (h : s.time.startDue = true ∨ s.time.boundaryDue ≠ .none) :
    s.startReady = s := by
  rw [State.startReady, if_neg]
  rw [State.atCycleEnd_iff]
  rintro ⟨_, h1, h2⟩
  rcases h with h | h
  · rw [h1] at h; cases h
  · exact h h2

/-- The tick that ends a base cycle. -/
theorem tickPasses_of_last {s : State} (h : s.AtLastTick) : tickPasses s = settleEgress s.entered := by
  rw [tickPasses, advanceClock, if_pos ((State.atCycleEnd_iff s).2 h), enterBaseCycle_eq h]

/-- A tick inside a base cycle. -/
theorem tickPasses_of_inside {s : State} (h : s.time.tick + 1 ≠ s.cycleTicks) :
    tickPasses s =
      settleEgress { s with time := { s.time with now := s.time.now + 1, tick := s.time.tick + 1 } } := by
  rw [tickPasses, advanceClock, if_neg]
  rw [State.atCycleEnd_iff]
  exact fun hl => h hl.1

end Sys2Proof.Machine
end

