-- ==== Sys2Proof/Laws/Egress.lean ====
section
/-! SUPPORT. What the egress schedulers can change when they apply their choice again (`settleEgress`), said once. -/

namespace Sys2Proof.Machine

/-- NOTICE_LOST is set and nothing else (R43). -/
def markLost (r : Record) : Record := { r with flags := { r.flags with noticeLost := true } }

theorem markLost_markLost (r : Record) : markLost (markLost r) = markLost r := rfl

/-- The schedulers change transmitters, instances' sent counts, control and open queues, open drops, hold queues,
NOTICE_LOST and the masters of removed replies: everything else stays. -/
structure Sending (s t : State) : Prop extends Quiet s t where
  store : t.store = s.store
  stations : t.stations = s.stations
  calendar : ∀ q : Port, (t.ports[q]).calendar = (s.ports[q]).calendar
  receiveErrors : ∀ q : Port, (t.ports[q]).receiveErrors = (s.ports[q]).receiveErrors
  strays : ∀ q : Port, (t.ports[q]).strays = (s.ports[q]).strays
  longestOpen : ∀ q : Port, (t.ports[q]).longestOpen = (s.ports[q]).longestOpen
  reuse : ∀ i : Slot, (t.slots[i]).reuse = (s.slots[i]).reuse
  record : ∀ i : Slot, t.recordAt i = s.recordAt i ∨ t.recordAt i = (s.recordAt i).map markLost

namespace Sending

theorem refl (s : State) : Sending s s :=
  { Quiet.refl s with
    store := rfl, stations := rfl, calendar := fun _ => rfl, receiveErrors := fun _ => rfl, strays := fun _ => rfl,
    longestOpen := fun _ => rfl, reuse := fun _ => rfl, record := fun _ => .inl rfl }

theorem trans {s t u : State} (h : Sending s t) (k : Sending t u) : Sending s u :=
  { h.toQuiet.trans k.toQuiet with
    store := k.store.trans h.store
    stations := k.stations.trans h.stations
    calendar := fun q => (k.calendar q).trans (h.calendar q)
    receiveErrors := fun q => (k.receiveErrors q).trans (h.receiveErrors q)
    strays := fun q => (k.strays q).trans (h.strays q)
    longestOpen := fun q => (k.longestOpen q).trans (h.longestOpen q)
    reuse := fun q => (k.reuse q).trans (h.reuse q)
    record := fun i => by
      rcases h.record i with e | e <;> rcases k.record i with e' | e'
      · exact .inl (e'.trans e)
      · exact .inr (by rw [e', e])
      · exact .inr (by rw [e', e])
      · refine .inr ?_
        rw [e', e]
        cases s.recordAt i <;> rfl }

theorem modPort (s : State) (p : Port) (f : PortState → PortState) (hl : (f s.ports[p]).link = (s.ports[p]).link)
    (hp : (f s.ports[p]).policy = (s.ports[p]).policy) (hc : (f s.ports[p]).calendar = (s.ports[p]).calendar)
    (hr : (f s.ports[p]).receiveErrors = (s.ports[p]).receiveErrors) (hs : (f s.ports[p]).strays = (s.ports[p]).strays)
    (hg : (f s.ports[p]).longestOpen = (s.ports[p]).longestOpen) : Sending s (s.modPort p f) := by
  have h : ∀ {α : Type} (get : PortState → α), get (f s.ports[p]) = get s.ports[p] →
      ∀ q : Port, get (s.modPort p f).ports[q] = get s.ports[q] := by
    intro α get e q
    rw [State.modPort_get]; split
    · next hq => subst hq; exact e
    · rfl
  exact { Quiet.modPort s p f hl hp with
    store := rfl, stations := rfl, calendar := h _ hc, receiveErrors := h _ hr, strays := h _ hs
    longestOpen := h _ hg, reuse := fun _ => rfl, record := fun _ => .inl rfl }

/-- A change of the masters alone. -/
theorem putMaster (s : State) (m : MasterIndex) (e : Option Master) : Sending s (s.putMaster m e) :=
  { Quiet.putMaster s m e with
    store := rfl, stations := rfl, calendar := fun _ => rfl, receiveErrors := fun _ => rfl, strays := fun _ => rfl,
    longestOpen := fun _ => rfl, reuse := fun _ => rfl, record := fun _ => .inl rfl }

/-- A change of one slot that keeps its reuse value and its record but for NOTICE_LOST. -/
theorem modSlot (s : State) (i : Slot) (f : SlotCell → SlotCell) (hr : (f s.slots[i]).reuse = (s.slots[i]).reuse)
    (hf : (f s.slots[i]).record = (s.slots[i]).record ∨ (f s.slots[i]).record = (s.slots[i]).record.map markLost) :
    Sending s (s.modSlot i f) :=
  { Quiet.modSlot s i f with
    store := rfl, stations := rfl, calendar := fun _ => rfl, receiveErrors := fun _ => rfl, strays := fun _ => rfl,
    longestOpen := fun _ => rfl
    reuse := fun j => by
      rw [State.modSlot_get]; split
      · next h => subst h; exact hr
      · rfl
    record := fun j => by
      simp only [State.recordAt]
      rw [State.modSlot_get]; split
      · next h => subst h; exact hf
      · exact .inl rfl }

theorem foldl {α : Type} (f : State → α → State) (h : ∀ s a, Sending s (f s a)) (l : List α) (s : State) :
    Sending s (l.foldl f s) := by
  induction l generalizing s with
  | nil => exact refl s
  | cons a l ih => exact (h s a).trans (ih _)

theorem dropIdleMaster (m : MasterIndex) (s : State) : Sending s (Machine.dropIdleMaster m s) := by
  unfold Machine.dropIdleMaster; split
  · split
    · exact putMaster ..
    · exact refl s
  · exact refl s

theorem replyGone (m : MasterIndex) (s : State) : Sending s (Machine.replyGone m s) := by
  unfold Machine.replyGone; split
  · split
    · exact (putMaster s m _).trans (dropIdleMaster ..)
    · exact refl s
  · exact refl s

theorem loseNotice (n : Nat) (s : State) : Sending s (Machine.loseNotice n s) := by
  unfold Machine.loseNotice; split
  · exact modSlot s _ _ rfl (.inr rfl)
  · exact refl s

theorem discardControl (f : ControlFrame) (s : State) : Sending s (Machine.discardControl f s) := by
  unfold Machine.discardControl; split
  · exact replyGone ..
  · exact loseNotice ..
  · exact refl s

theorem flushControl (p : Port) (s : State) : Sending s (Machine.flushControl p s) :=
  (modPort s p _ rfl rfl rfl rfl rfl rfl).trans (foldl _ (fun s f => discardControl f s) _ _)

theorem testHeads (p : Port) (s : State) : Sending s (Machine.testHeads p s) := by
  unfold Machine.testHeads; split
  · exact refl s
  · refine Sending.trans (t := if _ then Machine.flushControl p s else s) ?_ (modPort _ p _ rfl rfl rfl rfl rfl rfl)
    split
    · exact flushControl ..
    · exact refl s

theorem setQueue_reuse (c : SlotCell) (n : LegNo) (q : List HoldEntry) : (c.setQueue n q).reuse = c.reuse := by
  cases n <;> rfl

theorem setQueue_record (c : SlotCell) (n : LegNo) (q : List HoldEntry) : (c.setQueue n q).record = c.record := by
  cases n <;> rfl

theorem startWindowFrame (p : Port) (sp : Speed) (w : WindowInstance) (s : State) :
    Sending s (Machine.startWindowFrame p sp w s) := by
  unfold Machine.startWindowFrame; split
  · exact refl s
  · split
    · split
      · exact (modSlot s _ _ (setQueue_reuse ..) (.inl (setQueue_record ..))).trans (modPort _ p _ rfl rfl rfl rfl rfl rfl)
      · exact refl s
    · exact refl s

theorem startOpenHead (p : Port) (sp : Speed) (s : State) : Sending s (Machine.startOpenHead p sp s) := by
  unfold Machine.startOpenHead; split
  · split
    · exact modPort s p _ rfl rfl rfl rfl rfl rfl
    · exact refl s
  · exact refl s

theorem startOpenTimeFrame (p : Port) (sp : Speed) (s : State) : Sending s (Machine.startOpenTimeFrame p sp s) := by
  unfold Machine.startOpenTimeFrame; split
  · split
    · exact modPort s p _ rfl rfl rfl rfl rfl rfl
    · exact startOpenHead ..
  · exact startOpenHead ..

theorem chooseFrame (p : Port) (s : State) : Sending s (Machine.chooseFrame p s) := by
  unfold Machine.chooseFrame; split
  · split
    · split
      · exact startWindowFrame ..
      · exact startOpenTimeFrame ..
    · exact startOpenTimeFrame ..
    · exact startOpenTimeFrame ..
  · exact refl s

theorem schedulePort (p : Port) (s : State) : Sending s (Machine.schedulePort p s) :=
  ((testHeads p s).trans (chooseFrame ..)).trans (testHeads ..)

/-- The schedulers' whole effect (R143, R147, R149). -/
theorem settleEgress (s : State) : Sending s (Machine.settleEgress s) := foldl _ (fun s p => schedulePort p s) _ s

end Sending

end Sys2Proof.Machine
end

