-- ==== Sys2Proof/WellFormed.lean ====
section
/-! DEFINITION. Which commands are well formed. The operand types hold every range the spec gives (ports, slots,
legs, straps); what is left to check is that a received frame has a last byte, whose arrival is the event (R122). -/

namespace Sys2Proof

/-- A received frame holds at least one byte; every other command is well formed as its types say. -/
def Instr.wellFormed : Instr → Bool
  | .resetAsserted => true
  | .resetReleased _ => true
  | .baseCycleStart _ => true
  | .endOfSettlePeriod => true
  | .hypercycleBoundary => true
  | .sweep => true
  | .windowOpening _ _ => true
  | .windowEnd _ => true
  | .frameReceived _ frame => !frame.isEmpty
  | .query => true
  | .readCalendar => true
  | .readPort => true
  | .claim => true
  | .takeUpWaitingClaim => true
  | .release => true
  | .hold => true
  | .resume => true
  | .setPortPolicy => true
  | .setTiming => true
  | .setAge => true
  | .clearPort => true
  | .clearCell => true
  | .frameReady _ _ => true
  | .frameTransmitEnd _ => true

end Sys2Proof
end

