-- ==== Sys2Proof/Tests/Slice0.lean ====
section
/-! SUPPORT. Tests: what the spec's own tables and worked examples say, each about one operation or one step on a small
state. Expected values are the spec's, or hand calculation from its rules. -/

namespace Sys2Proof.Tests

open Sys2Proof Sys2Proof.Machine

-- One theorem after another: each is a kernel evaluation, and many at once ask for many stacks.
set_option Elab.async false

/-! ### The smoke test of WellFormed -/

/-- The one check of `wellFormed`: a frame without a byte is no frame (R122). -/
theorem test_empty_frame_is_ill_formed : (Instr.frameReceived 0 []).wellFormed = false := by decide

theorem test_frame_is_well_formed : (Instr.frameReceived 0 [0x00#8]).wellFormed = true := by decide

/-- No row of the table has bits (spec/opcode_table.json). -/
theorem test_no_word_spells_a_command : decodeTableWord 16 0x1234 = none := by decide

/-! ### Numbers of the manual -/

/-- Window lengths (table of R80). -/
theorem test_window_lengths :
    [windowLength 2 128 .mb100 32, windowLength 1 128 .mb100 32, windowLength 1 128 .mb1000 32,
      windowLength 4 256 .mb1000 32, windowLength 1 40 .mb1000 32, windowLength 8 1522 .mb100 1008,
      windowLength 1 64 .mb1000 0] = [2992, 1520, 192, 1136, 128, 124368, 96] := by decide

/-- Caps (table of R52), with s = 0. -/
theorem test_caps :
    [capOf 15625 32, capOf 31250 48, capOf 62500 16, capOf 125000 48, capOf 31250 0]
      = [7812, 23437, 15625, 93750, 0] := by decide

/-- Base-cycle lengths (table of R2). -/
theorem test_base_cycles : (List.finRange 4).map baseCycleTicks = [15625, 31250, 62500, 125000] := by decide

/-- The two distances of chapter 01, "Worked sequence: edges of one window", and R13's distance 0 at an opening. -/
theorem test_distances :
    [distanceTo 31250 1 1 9856 6 20000, distanceTo 31250 1 1 9856 7 13000, distanceTo 31250 1 1 9856 1 9856]
      = [21106, 59356, 0] := by decide

/-- The adjusted preferred offset of R82's example. -/
theorem test_search_offset : searchOffset 30500 1232 31250 = 30016 := by decide

/-- The FCS of the nine digits "123456789" (the published check value 0xCBF43926 of this code, sent low byte first). -/
theorem test_fcs_check_value :
    fcsBytes [0x31#8, 0x32#8, 0x33#8, 0x34#8, 0x35#8, 0x36#8, 0x37#8, 0x38#8, 0x39#8]
      = [0x26#8, 0x39#8, 0xF4#8, 0xCB#8] := by decide +kernel

/-- Stream numbers resolve by slot and reuse (R18): 4096 names no slot, and a FREE slot's number is stale. -/
theorem test_stale_numbers : State.reset.resolve 4096 = none ∧ State.reset.resolve 0 = none := by decide +kernel

/-! ### Windows -/

/-- A window of slot `i`, leg 0. -/
def win (i : Slot) (k p o w : Nat) : Window :=
  { offset := o, length := w, rate := k, phase := p, owner := .leg i .leg0, retiring := false }

/-- The examples of the collision rule (chapter 03). -/
theorem test_collisions :
    [collide (win 0 0 0 992 1008) (win 1 2 3 1504 992), collide (win 0 1 0 992 1008) (win 1 2 3 1504 992),
      collide (win 0 1 1 992 1008) (win 1 2 3 1504 992), collide (beaconWindow 3) (win 1 2 0 512 512),
      collide (beaconWindow 3) (win 1 2 2 512 512), collide (win 0 0 0 1008 992) (win 1 0 0 2000 1008)]
      = [true, false, true, true, false, false] := by decide

/-- The longest open stretch of the worked timeline of chapter 07: 28,242. -/
theorem test_longest_stretch :
    longestStretch 31250 3 [beaconWindow 3, win 0 0 0 848 3008, win 3 1 1 3856 5952, win 2 1 1 9856 2992] = 28242 := by
  decide +kernel

/-- The stretch of a calendar with its beacon window alone (R154). -/
theorem test_beacon_stretch : longestStretch 31250 3 [beaconWindow 3] = 8 * 31250 - 848 := by decide +kernel

/-! ### A running cell

CYC 1, H = 3, ports UP at 1000 Mb/s but port 5 at 100, port 7 the administrator's. Stream 101 is that of chapters 02, 06
and 08: slot 3, reuse value 5, leg 0 from port 2 to port 5 at [9,856, 12,848), leg 1 back at [14,848, 15,040). -/

def ownerAddr : Addr := 0x020000000002#48
def driveAddr : Addr := 0x020000000005#48
def adminAddr : Addr := 0x020000000007#48

/-- Ports that are UP. -/
def upPorts (calendar : Port → List Window) : Vector PortState 8 :=
  Vector.ofFn fun p : Fin 8 =>
    { PortState.reset 1 with link := .up (if p = 5 then .mb100 else .mb1000), calendar := calendar p }

def lowLines : Vector PhyLines 8 := Vector.replicate 8 ⟨false, false, false⟩

/-- Hypercycle 9, base cycle 3, tick 2,000, nothing reserved. -/
def idleCell : State :=
  { State.resetWith { adm := 7, cyc := 1, unit := 4 } lowLines [] with
    time :=
      { now := 5000000, tick := 2000, b := 3, hypercycle := 9, hExp := 3, settle := 0, startDue := false
        boundaryDue := .none }
    ports := upPorts fun _ => [beaconWindow 3]
    stations :=
      ((Vector.replicate 256 none).set 0 (some { addr := ownerAddr, port := 2, seen := true, pins := 0 })).set 1
        (some { addr := driveAddr, port := 5, seen := false, pins := 0 }) }

def leg0 : Leg :=
  { ingress := 2, egress := 5, frameSize := 128, framesPerWindow := 2, offset := 9856, length := 2992
    speed := .mb100, misses := 0, smallestLead := none }

def leg1 : Leg :=
  { ingress := 5, egress := 2, frameSize := 128, framesPerWindow := 1, offset := 14848, length := 192
    speed := .mb1000, misses := 0, smallestLead := none }

/-- The record of stream 101. -/
def stream101 (st : RecordState) : Record :=
  { state := st, owner := 0, ownerPort := 2, ownerAddr := ownerAddr, destAddr := driveAddr, rate := 1, phase := 1
    leg0 := leg0, leg1 := some leg1, turnaround := some 2000, remaining := some 3, flags := .empty, delivered := 0
    missedWindows := 0, lateFrames := 0, droppedFrames := 0, wake := .empty, endReason := none, waiters := []
    firstHypercycle := some 10 }

def window0 : Window :=
  { offset := 9856, length := 2992, rate := 1, phase := 1, owner := .leg 3 .leg0, retiring := false }

def window1 : Window :=
  { offset := 14848, length := 192, rate := 1, phase := 1, owner := .leg 3 .leg1, retiring := false }

/-- The owner's entry of the master table. -/
def ownerEntry : Master :=
  { port := 2, addr := ownerAddr, phase := .idle, held := 1, request := none, awaited := none }

/-- The cell with record `r` in slot 3 and its windows installed. -/
def withStream (r : Record) : State :=
  { idleCell with
    slots := idleCell.slots.set 3 { reuse := 5, record := some r, queue0 := [], queue1 := [] }
    masters := idleCell.masters.set 0 (some ownerEntry)
    ports := upPorts fun p =>
      if p = 5 then [beaconWindow 3, window0] else if p = 2 then [beaconWindow 3, window1] else [beaconWindow 3]
    stations :=
      ((Vector.replicate 256 none).set 0 (some { addr := ownerAddr, port := 2, seen := true, pins := 1 })).set 1
        (some { addr := driveAddr, port := 5, seen := false, pins := 1 }) }

/-- Stream 101 with its record in the state `st`. -/
def running (st : RecordState) : State := withStream (stream101 st)

/-- The cell with port `p` changed. -/
def onPort (s : State) (p : Port) (f : PortState → PortState) : State := s.modPort p f

/-- The cell at tick `t` of base cycle `b`. -/
def atTick (s : State) (b t : Nat) : State := { s with time := { s.time with b := b, tick := t } }

/-- The next state of a command; the state itself is what a stop would leave, and there is none. -/
def after (c : Instr) (s : State) : State :=
  match exec c s with
  | .next t => t
  | .fault _ => s
  | .refused _ => s

/-- The bytes given, padded to 60, with their FCS. -/
def framed (l : List Byte) : Frame :=
  let padded := l ++ List.replicate (60 - l.length) 0
  padded ++ fcsBytes padded

/-- A control frame to the device's broadcast address, from `src`, of kind `k`, tag 0x1234 and the body given. -/
def request (src : Addr) (k : Nat) (body : List Byte) : Frame :=
  framed (List.replicate 6 0xFF#8 ++ bytesOf 6 src.toNat ++ [0x9A#8, 0x72#8, BitVec.ofNat 8 k, 0#8, 0x12#8, 0x34#8]
    ++ bytesOf 2 body.length ++ body)

/-- A motion frame of 64 bytes stamped with stream number `n`. -/
def motion (n : Nat) : Frame :=
  framed (bytesOf 6 driveAddr.toNat ++ bytesOf 6 ownerAddr.toNat ++ [0x9A#8, 0x71#8] ++ bytesOf 2 n)

/-- An open frame of 64 bytes. -/
def openFrame (dst src : Addr) : Frame := framed (bytesOf 6 dst.toNat ++ bytesOf 6 src.toNat ++ [0x08#8, 0x00#8])

/-- The unit is about to take `body` from master `m`, whose entry is `e`. -/
def asking (s : State) (m : MasterIndex) (e : Master) (body : QueuedBody) : State :=
  { s with
    masters := s.masters.set m (some e)
    admission :=
      { s.admission with queue := [{ master := m, port := e.port, addr := e.addr, body := body }] } }

/-- The owner QUEUED with a request of the kind given. -/
def ownerAsks (k : RequestKind) : Master :=
  { ownerEntry with phase := .queued, request := some ⟨k, 0x1234#16⟩ }

/-- The administrator QUEUED with a request of the kind given. -/
def adminAsks (k : RequestKind) : Master :=
  { port := 7, addr := adminAddr, phase := .queued, held := 0, request := some ⟨k, 0x1234#16⟩, awaited := none }

/-- What is read of the control queue of a port: each message in turn. -/
def messagesOn (s : State) (p : Port) : List Message :=
  (match (s.ports[p]).tx with
    | .busy (.control f) _ _ => [f.message]
    | _ => []) ++ ((s.ports[p]).controlQueue.map ControlFrame.message)

/-- The status of an answer, its kind byte and tag. -/
def answersOn (s : State) (p : Port) : List (Nat × Byte × BitVec 16) :=
  (messagesOn s p).filterMap fun m =>
    match m with
    | .answer k tag st _ => some (st.code, k, tag)
    | .notice .. => none
    | .beacon _ => none

/-- The kinds of the notices on a port. -/
def noticesOn (s : State) (p : Port) : List Nat :=
  (messagesOn s p).filterMap fun m =>
    match m with
    | .notice k .. => some k.code
    | .answer .. => none
    | .beacon _ => none

/-! ### Placement (worked cases of chapter 04) -/

/-- Port 5 of "three claims on one port": beacon, A and B, and what `more` stages for it. -/
def threeClaims (more : List Window) : State :=
  { idleCell with
    ports := upPorts fun p =>
      if p = 5 then [beaconWindow 3, win 0 0 0 848 3008, win 1 1 1 3856 6000] ++ more
      else if p = 2 then [beaconWindow 3, win 4 1 0 1008 7680, win 5 2 3 12000 800]
      else if p = 6 then
        [beaconWindow 3, win 6 1 1 848 14400, win 7 2 0 16000 15248, win 8 3 2 18000 12048]
      else [beaconWindow 3] }

/-- A leg of length `w` to port `p` with cap `c`. -/
def planOf (p : Port) (w c : Nat) : LegPlan := { egress := p, speed := .mb100, length := w, cap := c }

/-- Claim C1: phase 1, offset 9,856. -/
theorem test_search_c1 :
    (threeClaims []).search (planOf 5 2992 15625) none 0 1 1 0
      = some { phase := 1, offset0 := 9856, offset1 := none } := by decide +kernel

/-- Claim C2: offset 12,848. Claim C3: NO_ROOM. -/
theorem test_search_c2_c3 :
    (threeClaims [win 2 1 1 9856 2992]).search (planOf 5 2992 15625) none 0 0 0 0
        = some { phase := 0, offset0 := 12848, offset1 := none } ∧
      (threeClaims [win 2 1 1 9856 2992, win 3 0 0 12848 2992]).search (planOf 5 2992 15625) none 0 0 0 0 = none := by
  decide +kernel

/-- The joint search moves to phase 1: [9,856, 11,376) and [12,800, 12,992); with turnaround 19,904 it fails. -/
theorem test_joint_search :
    (threeClaims []).search (planOf 5 1520 15625) (some (planOf 2 192 7812)) 1008 1 0 0
        = some { phase := 1, offset0 := 9856, offset1 := some 12800 } ∧
      (threeClaims []).search (planOf 5 1520 15625) (some (planOf 2 192 7812)) 19904 1 0 0 = none := by
  decide +kernel

/-- The search passes its origin to phase 2, offset 0; EXACT mode at 20,000 finds R there. -/
theorem test_search_past_origin :
    (threeClaims []).search (planOf 6 1232 15625) none 0 2 2 20003
        = some { phase := 2, offset0 := 0, offset1 := none } ∧
      (threeClaims []).exactPlace (planOf 6 1232 15625) none 0 2 2 20000 = none := by decide +kernel

/-! ### Reset and the time base -/

/-- R16 and R3: the assertion of RESET cuts a frame. -/
theorem test_reset_asserted_cuts_frames :
    ((after .resetAsserted (onPort idleCell 2 fun ps =>
      { ps with tx := .busy .openFrame [0x00#8] 5000100 })).ports[2]).tx = .free := by decide +kernel

/-- R3: UNIT 4 gives 0E:5A:00:00:08:04; R2: CYC 1 gives L = 31,250. -/
theorem test_reset_released_samples_straps :
    (after (.resetReleased { adm := 7, cyc := 1, unit := 4 }) idleCell).deviceAddr = 0x0E5A00000804#48 ∧
      (after (.resetReleased { adm := 7, cyc := 1, unit := 4 }) idleCell).cycleTicks = 31250 := by decide +kernel

/-- R4: from base cycle 3 the next is 4; from 7 it is 0, with the boundary. -/
theorem test_base_cycle_start_advances_b :
    (after (.baseCycleStart lowLines) (atTick idleCell 3 31249)).time.b = 4 ∧
      (after (.baseCycleStart lowLines) (atTick idleCell 7 31249)).time.boundaryDue = .hypercycle := by decide +kernel

/-- R8 and R10: the start that takes the settle counter from 1 to 0 raises the end of the settle period. -/
theorem test_base_cycle_start_ends_settling :
    (after (.baseCycleStart lowLines)
      { State.reset with
        time := { State.reset.time with tick := 15624, settle := 1, startDue := false } }).time.boundaryDue
      = .endOfSettle := by decide +kernel

/-- A port's link after a BAD sample, from the states of the worked sequence of chapter 08. -/
theorem test_link_samples :
    [(LinkState.up .mb100).next .bad .mb100, (LinkState.goingDown .mb100).next .good .mb100,
      (LinkState.goingDown .mb100).next .bad .mb100, LinkState.down.next .good .mb100,
      (LinkState.comingUp 7).next .good .mb1000, (LinkState.up .mb1000).next .fault .mb1000,
      LinkState.faulted.next .bad .mb1000]
      = [.goingDown .mb100, .up .mb100, .down, .comingUp 1, .up .mb1000, .faulted, .down] := by decide

/-- R10 and R14: the first beacon carries hypercycle number 0 and generation 0. -/
theorem test_end_of_settle_captures_first_beacon :
    (after .endOfSettlePeriod
      { State.reset with
        time := { State.reset.time with settle := 0, startDue := false, boundaryDue := .endOfSettle } }).beacon
      = some { unit := 0, hypercycle := 0, generation := 0, cyc := 0, hExp := 3, held := false, queueLength := 0 } := by
  decide +kernel

/-- R39 and R17: slot 3 goes FREE and its reuse value becomes 6; R63: the generation moves once. -/
theorem test_boundary_frees_stream_101 :
    let t := after .hypercycleBoundary
      { running .ending with time := { (running .ending).time with b := 0, tick := 0, boundaryDue := .hypercycle } }
    t.streamOf 3 = 102 ∧ t.recordAt 3 = none ∧ t.time.hypercycle = 10 ∧ noticesOn t 2 = [4] := by decide +kernel

/-- The switch of chapter 03: port 5 holds beacon, A, D and C1, in the order of their offsets. -/
theorem test_switch_on_port_5 :
    switchCalendar
        [{ egress := 5, offset := 9856, length := 2992, rate := 1, phase := 1, slot := 2, leg := .leg0 },
          { egress := 5, offset := 3856, length := 5952, rate := 1, phase := 1, slot := 3, leg := .leg0 }]
        none
        [beaconWindow 3, win 0 0 0 848 3008, { win 1 1 1 3856 6000 with retiring := true }]
      = [beaconWindow 3, win 0 0 0 848 3008, win 3 1 1 3856 5952, win 2 1 1 9856 2992] := by decide

/-- R174: an entry neither seen nor pinned goes, and one seen stays with its flag cleared. -/
theorem test_sweep :
    let t := after .sweep { idleCell with ageing := { agePeriod := 300, sweepCount := 1200000 } }
    t.stations[0] = some { addr := ownerAddr, port := 2, seen := false, pins := 0 } ∧ t.stations[1] = none ∧
      t.ageing.sweepCount = 0 := by decide +kernel

/-! ### Windows and transmitters -/

/-- Who holds the transmitter of a port, and until when. -/
def busyUntil (s : State) (p : Port) : Option (Claimant × Nat) :=
  match (s.ports[p]).tx with
  | .busy c _ t => some (c, t)
  | .free => none

/-- A hold-queue entry of the motion frame of stream 101. -/
def held (readyAt : Nat) (m : Mark) : HoldEntry := { frame := motion 101, readyAt := readyAt, mark := m }

/-- `s` with hold queue `q` at leg 0 of slot 3. -/
def withQueue0 (s : State) (q : List HoldEntry) : State := s.modSlot 3 fun c => { c with queue0 := q }

/-- R142 and R143: the window opens live and its ready head starts, for (64 + 20) × 10 ticks. -/
theorem test_window_opens_live_and_sends :
    let t := after (.windowOpening 5 (.leg 3 .leg0))
      (atTick (withQueue0 (running .active) [held 4999000 .ready]) 3 9856)
    busyUntil t 5 = some (.window 3 .leg0, 5000840) ∧ (t.slots[3]).queue0 = [] := by decide +kernel

/-- R141: the beacon goes out at 1000 Mb/s for 84 ticks. -/
theorem test_beacon_is_sent :
    let c : BeaconContent :=
      { unit := 4, hypercycle := 9, generation := 33, cyc := 1, hExp := 3, held := false, queueLength := 0 }
    let t := after (.windowOpening 2 .beacon) { atTick idleCell 0 0 with beacon := some c }
    busyUntil t 2 = some (.beacon, 5000084) := by decide +kernel

/-- An instance of leg 0's window with `n` frames sent, ending now. -/
def instance0 (n : Nat) : CurrentInstance :=
  .window { slot := 3, leg := .leg0, b := 3, cls := .live, sent := n, endAt := 5000000 }

/-- The report "b 1, leg 0 delivered" of chapter 02. -/
theorem test_window_end_delivered :
    (after (.windowEnd 5) (onPort (running .active) 5 fun ps => { ps with current := instance0 1 })).recordAt 3
      = some { stream101 .active with delivered := 1, remaining := some 2 } := by decide +kernel

/-- The second missed window of a one-leg record at miss limit 2: DORMANT, with its notice (chapter 02). -/
theorem test_window_end_goes_dormant :
    let r := { stream101 .active with leg0 := { leg0 with misses := 1 }, leg1 := none }
    let t := after (.windowEnd 5) (onPort (withStream r) 5 fun ps =>
      { ps with current := instance0 0, policy := { ps.policy with missLimit := 2 } })
    (t.recordAt 3).map (fun r => (r.state, r.missedWindows, r.flags.dormantSeen)) = some (.dormant, 1#16, true) ∧
      noticesOn t 2 = [1] := by decide +kernel

/-- F1 of chapter 06: ready at 9,256 of base cycle 1, on time, lead 600. -/
theorem test_frame_ready_on_time :
    let t := after (.frameReady 3 .leg0) (atTick (withQueue0 (running .active) [held 5000000 .waiting]) 1 9256)
    (t.recordAt 3).bind (fun r => r.leg0.smallestLead) = some 600 ∧
      (t.slots[3]).queue0.map HoldEntry.mark = [.ready] := by decide +kernel

/-- F3 of chapter 06: ready inside the live instance, late. -/
theorem test_frame_ready_late :
    let s := onPort (withQueue0 (running .active) [held 5000000 .waiting]) 5 fun ps =>
      { ps with
        current := .window { slot := 3, leg := .leg0, b := 1, cls := .live, sent := 2, endAt := 5002892 } }
    let t := after (.frameReady 3 .leg0) (atTick s 1 9956)
    (t.recordAt 3).map (fun r => (r.flags.late, r.lateFrames)) = some (true, 1#16) ∧
      (t.slots[3]).queue0.map HoldEntry.mark = [.late] := by decide +kernel

/-- R113: the reply has left: the owner of one record is IDLE. -/
theorem test_transmit_end_of_reply :
    let f : ControlFrame := replyTo 0 ownerEntry ⟨.release, 0#16⟩ .noStream (.stream 7)
    let s := onPort (running .active) 2 fun ps => { ps with tx := .busy (.control f) [] 5000000 }
    (after (.frameTransmitEnd 2)
      { s with
        masters := s.masters.set 0
          (some { ownerEntry with phase := .replyDue, request := some ⟨.release, 0#16⟩ }) }).masters[0]
      = some ownerEntry := by decide +kernel

/-- R147: of a control head and an open head, the control head starts first. -/
theorem test_transmit_end_starts_control_head :
    let f : ControlFrame := replyTo 0 ownerEntry ⟨.release, 0#16⟩ .noStream (.stream 7)
    let s := onPort idleCell 2 fun ps =>
      { ps with tx := .busy .openFrame [] 5000000, controlQueue := [f], openQueue := [motion 0] }
    let t := after (.frameTransmitEnd 2) s
    ((t.ports[2]).controlQueue.length, (t.ports[2]).openQueue.length) = (0, 1) := by decide +kernel

/-! ### Received frames -/

/-- The stream check of chapter 06: accepted by leg 0 on port 2, a stray on port 6 and under number 100. -/
theorem test_stream_check :
    [(running .active).streamCheck 2 (motion 101), (running .active).streamCheck 5 (motion 101),
      (running .active).streamCheck 6 (motion 101), (running .active).streamCheck 2 (motion 100),
      (running .active).streamCheck 2 (motion 4197), (running .suspended).streamCheck 2 (motion 101)]
      = [some (3, .leg0), some (3, .leg1), none, none, none, none] := by decide +kernel

set_option maxRecDepth 100000 in
/-- An accepted frame joins its hold queue, ready 256 ticks later (R129, R131). -/
theorem test_motion_frame_is_held :
    ((after (.frameReceived 2 (motion 101)) (running .active)).slots[3]).queue0.map
      (fun e => (e.readyAt, e.mark)) = [(5000256, .waiting)] := by decide +kernel

/-! ### Requests -/

/-- A request taken at the tick of the end of the settle period, before that end is taken, is answered STARTING (R9). -/
theorem test_request_before_end_of_settle :
    let s := { idleCell with time := { idleCell.time with b := 0, hypercycle := 0, tick := 0, boundaryDue := .endOfSettle } }
    answersOn (takeRequest 2 (request ownerAddr 2 [0x00#8, 0x65#8]) s) 2 = [(0x10, 0x02#8, 0x1234#16)] := by
  decide +kernel

/-- The loss of an ENDED notice sets no flag, whatever record carries its number by then (R43, R115). -/
theorem test_lost_ended_notice_leaves_no_trace :
    (egressLoss 2 (handEnded 101 (stream101 .ending) (running .active))).recordAt 3 = some (stream101 .active) := by
  decide +kernel

/-- A QUERY as the bytes spell it (R189): stream 101, clear set 0x21, part 2. -/
theorem test_query_is_decoded :
    decodeBody .query (request ownerAddr 3 [0x00#8, 0x65#8, 0x21#8, 0x02#8])
      = .immediate (.query 101 ⟨true, false, false, false, false, true⟩ 2) := by decide +kernel

/-- A CLAIM as the bytes spell it (R189): k 1, return leg, phase 1 given, 2 × 128 and 1 × 128 bytes, turnaround 2,000,
3 windows. -/
theorem test_claim_is_decoded :
    decodeBody .claim (request ownerAddr 1
        ([0x02#8, 0#8, 0#8, 0#8, 0#8, 0x05#8] ++ [0x00#8, 0x01#8, 0x03#8, 0x01#8, 0x02#8, 0x01#8] ++
          [0x00#8, 0x80#8, 0x00#8, 0x80#8, 0x07#8, 0xD0#8, 0x00#8, 0x03#8] ++ [0#8, 0#8, 0x26#8, 0x80#8]))
      = .queued (.claim
        { dest := driveAddr, mode := 0, rate := 1, returnLeg := true, phase := 1, offset := 0, frames0 := 2
          frames1 := 1, size0 := 128, size1 := 128, turnaround := 2000, remaining := 3 }) := by decide +kernel

/-- A QUERY is handed on; its answer is OK, and the owner's clear set is applied after the snapshot (R42). -/
theorem test_query_answers_and_clears :
    let r := { stream101 .active with flags := ⟨true, true, false, false, false, false⟩ }
    let s := { withStream r with
      inbox := [{ port := 2, addr := ownerAddr, tag := 0x1234#16
                  body := .query 101 ⟨true, false, false, false, false, false⟩ 0 }] }
    let t := after .query s
    answersOn t 2 = [(0, 0x03#8, 0x1234#16)] ∧
      t.recordAt 3 = some { r with flags := ⟨false, true, false, false, false, false⟩ } := by decide +kernel

/-- READ_CALENDAR shows two of port 5's windows, and its load (R68, R191). -/
theorem test_read_calendar :
    ((running .active).calendarReading 5 0).peak = 2992 ∧ ((running .active).calendarReading 5 0).freePlaces = 16 ∧
      (((running .active).calendarReading 5 0).entries.map CalendarEntry.stream) = [none, some 101] := by
  decide +kernel

/-- READ_PORT with its clear sets the three counters to 0 after they are read (R186). -/
theorem test_read_port_clears :
    let s := onPort idleCell 3 fun ps => { ps with strays := 7#16 }
    let t := after .readPort
      { s with inbox := [{ port := 7, addr := adminAddr, tag := 0#16, body := .readPort 3 true }] }
    (t.ports[3]).strays = 0#16 ∧ answersOn t 7 = [(0, 0x05#8, 0#16)] := by decide +kernel

/-- The claim of chapter 02's stream. -/
def claim101 : ClaimFields :=
  { dest := driveAddr, mode := 0, rate := 1, returnLeg := true, phase := 1, offset := 9856, frames0 := 2
    frames1 := 1, size0 := 128, size1 := 128, turnaround := 2000, remaining := 3 }

/-- A known master QUEUED with a claim, holding nothing. -/
def newOwner : Master :=
  { port := 2, addr := ownerAddr, phase := .queued, held := 0, request := some ⟨.claim, 0x1234#16⟩, awaited := none }

/-- The claim of chapter 02 is granted: [9,856, 12,848) and [14,848, 15,040) in phase 1, staged leg 0 first. -/
theorem test_claim_is_granted :
    let t := after .claim (asking idleCell 0 newOwner (.claim claim101))
    (t.store.changeList.map fun e => (e.egress, e.offset, e.length, e.phase, e.slot))
      = [(5, 9856, 2992, 1, 0), (2, 14848, 192, 1, 0)] ∧
      (t.masters[0]).map (fun e => (e.held, e.phase)) = some (1, .executing) := by decide +kernel

/-- "Which refusal is reported": k = 5 with an unknown destination and the quota used up is RANGE (chapter 04). -/
theorem test_claim_reports_range_first :
    answersOn (after .claim (asking idleCell 0 { newOwner with held := 8 }
      (.claim { claim101 with rate := 5, dest := 0x020000000099#48 }))) 2 = [(0x22, 0x01#8, 0x1234#16)] := by
  decide +kernel

/-- A waiting claim taken up after the switch is granted (R75). -/
theorem test_waiting_claim_is_taken_up :
    let s := asking idleCell 0 newOwner (.claim claim101)
    let t := after .takeUpWaitingClaim { s with admission := { s.admission with waiting := .takeUp } }
    (t.recordAt 0).map Record.state = some .pending ∧ t.admission.waiting = .none := by decide +kernel

/-- RELEASE by the owner: ENDING with RELEASED, both windows retiring, no answer yet (R35). -/
theorem test_release_ends_the_record :
    let t := after .release (asking (running .active) 0 (ownerAsks .release) (.release 101))
    (t.recordAt 3).map (fun r => (r.state, r.endReason, r.waiters)) = some (.ending, some .released, [0]) ∧
      (t.ports[5]).calendar = [beaconWindow 3, { window0 with retiring := true }] ∧ answersOn t 2 = [] := by
  decide +kernel

/-- RELEASE of a number whose slot carries another reuse value: NO_STREAM. -/
theorem test_release_of_stale_number :
    answersOn (after .release (asking (running .active) 0 (ownerAsks .release) (.release 100))) 2
      = [(0x2A, 0x02#8, 0x1234#16)] := by decide +kernel

theorem test_hold :
    let t := after .hold (asking idleCell 1 (adminAsks .hold) .hold)
    t.admission.held = true ∧ answersOn t 7 = [(0, 0x06#8, 0x1234#16)] := by decide +kernel

theorem test_resume :
    let s := asking idleCell 1 (adminAsks .resume) .resume
    (after .resume { s with admission := { s.admission with held := true } }).admission.held = false := by
  decide +kernel

/-- SET_PORT_POLICY without the held flag: NOT_HELD (R180). -/
theorem test_set_port_policy_needs_hold :
    answersOn (after .setPortPolicy
      (asking idleCell 1 (adminAsks .setPortPolicy) (.setPortPolicy 3 40 64 5 1 true 4))) 7
      = [(0x2C, 0x08#8, 0x1234#16)] := by decide +kernel

/-- SET_TIMING of 2 in a held, empty cell makes 2 pending and answers at the switch (R182). -/
theorem test_set_timing_is_pending :
    let s := asking idleCell 1 (adminAsks .setTiming) (.setTiming 2)
    let t := after .setTiming { s with admission := { s.admission with held := true } }
    t.store.pendingH = some 2 ∧ t.switchAnswers = [1] ∧ answersOn t 7 = [] := by decide +kernel

/-- SET_AGE: 300 seconds at CYC 1 are 1,200,000 base cycles (R173). -/
theorem test_set_age :
    let t := after .setAge (asking idleCell 1 (adminAsks .setAge) (.setAge 300))
    t.ageing = { agePeriod := 300, sweepCount := 0 } ∧
      messagesOn t 7 = [.answer 0x0A#8 0x1234#16 .ok (.age 300 1200000)] := by decide +kernel

/-- CLEAR_PORT of port 5 ends stream 101 with PORT_CLEARED (R38). -/
theorem test_clear_port :
    ((after .clearPort (asking (running .dormant) 1 (adminAsks .clearPort) (.clearPort 5))).recordAt 3).map
      (fun r => (r.state, r.endReason)) = some (.ending, some .portCleared) := by decide +kernel

/-- CLEAR_CELL counts one record ended and none cancelled (R187). -/
theorem test_clear_cell :
    ((after .clearCell (asking (running .suspended) 1 (adminAsks .clearCell) .clearCell)).masters[1]).bind
      Master.awaited = some (.cleared none 0 1) := by decide +kernel

set_option maxRecDepth 100000 in
/-- A beacon's bytes (chapter 11): 64 of them, with a good FCS, the unit number first in the body. -/
theorem test_beacon_bytes :
    let f := frameOfMessage 4 0xFFFFFFFFFFFF#48 (.beacon
      { unit := 4, hypercycle := 9, generation := 34, cyc := 1, hExp := 3, held := false, queueLength := 0 })
    f.take 31 =
      [0xFF#8, 0xFF#8, 0xFF#8, 0xFF#8, 0xFF#8, 0xFF#8, 0x0E#8, 0x5A#8, 0x00#8, 0x00#8, 0x08#8, 0x04#8, 0x9A#8, 0x72#8,
        0x82#8, 0x00#8, 0x00#8, 0x00#8, 0x00#8, 0x0B#8, 0x04#8, 0x00#8, 0x00#8, 0x00#8, 0x09#8, 0x00#8, 0x22#8, 0x01#8,
        0x03#8, 0x00#8, 0x00#8] ∧ goodFcs f = true := by decide +kernel

/-! ### Witnesses: a concrete state and operands that meet the hypotheses of each statement

One theorem for each statement that has hypotheses, a conjunct or more for each of its clauses. -/

/-- A slot that is FREE and new. -/
def freeCell : SlotCell := { reuse := 0, record := none, queue0 := [], queue1 := [] }

/-- With slot 3 alone in use, what holds of its record holds of every record. -/
theorem each_record {s : State} {c : SlotCell} {P : Slot → Record → Prop}
    (hs : s.slots = (Vector.replicate 128 freeCell).set 3 c) (h : ∀ r, c.record = some r → P 3 r) :
    ∀ (i : Slot) (r : Record), s.recordAt i = some r → P i r := by
  intro i r hr
  unfold State.recordAt at hr
  rw [hs, Fin.getElem_fin, Vector.getElem_set] at hr
  split at hr
  · next hi =>
    have : i = 3 := Fin.ext hi.symm
    subst this
    exact h r hr
  · simp [freeCell] at hr

/-- With every slot FREE there is no record. -/
theorem no_record {s : State} {P : Slot → Record → Prop} (hs : s.slots = Vector.replicate 128 freeCell) :
    ∀ (i : Slot) (r : Record), s.recordAt i = some r → P i r := by
  intro i r hr
  unfold State.recordAt at hr
  simp [hs, freeCell] at hr

theorem each_master {s : State} {P : MasterIndex → Master → Prop} [∀ m e, Decidable (P m e)]
    (h : ∀ m : MasterIndex, (s.masters[m]).all (fun e => decide (P m e)) = true) :
    ∀ (m : MasterIndex) (e : Master), s.masters[m] = some e → P m e := by
  intro m e he
  have := h m
  rw [he] at this
  simpa using this

/-- With two stations in the table, what holds of them holds of every entry. -/
theorem each_station {s : State} {x y : Station} {P : Place → Station → Prop}
    (hs : s.stations = ((Vector.replicate 256 none).set 0 (some x)).set 1 (some y)) (hx : P 0 x) (hy : P 1 y) :
    ∀ (j : Place) (e : Station), s.stations[j] = some e → P j e := by
  intro j e he
  rw [hs, Fin.getElem_fin, Vector.getElem_set, Vector.getElem_set] at he
  split at he
  · next hj =>
    have : j = 1 := Fin.ext hj.symm
    subst this
    cases he
    exact hy
  · split at he
    · next hj =>
      have : j = 0 := Fin.ext hj.symm
      subst this
      cases he
      exact hx
    · simp at he

/-- The command answers a next state. -/
def answersNext (c : Instr) (s : State) : Bool :=
  match exec c s with
  | .next _ => true
  | .fault _ => false
  | .refused _ => false

theorem next_of_answersNext {c : Instr} {s : State} (h : answersNext c s = true) : ∃ t, exec c s = .next t := by
  unfold answersNext at h
  split at h
  · next t ht => exact ⟨t, ht⟩
  · cases h
  · cases h

theorem after_of_answersNext {c : Instr} {s : State} (h : answersNext c s = true) : exec c s = .next (after c s) := by
  obtain ⟨t, ht⟩ := next_of_answersNext h
  simp [after, ht]

theorem tx_of_busyUntil {s : State} {p : Port} {c : Claimant} {t : Nat} (h : busyUntil s p = some (c, t)) :
    ∃ f, (s.ports[p]).tx = .busy c f t := by
  unfold busyUntil at h
  split at h
  · next c' f t' he => cases h; exact ⟨f, he⟩
  · cases h

/-- Two stations of different addresses make a table without a repeat. -/
theorem distinct_of_two {s : State} {x y : Station}
    (hs : s.stations = ((Vector.replicate 256 none).set 0 (some x)).set 1 (some y)) (h : x.addr ≠ y.addr) :
    s.AddressesDistinct := fun j k a b ha hb =>
  each_station (P := fun j a => ∀ (k : Place) b, s.stations[k] = some b → a.addr = b.addr → j = k) hs
    (each_station hs (fun _ => rfl) fun e => absurd e h) (each_station hs (fun e => absurd e.symm h) fun _ => rfl)
    j a ha k b hb

set_option maxRecDepth 100000 in
/-- The frames that the witnesses receive have good checks. -/
theorem goodFcs_of_frames :
    goodFcs (motion 101) = true ∧ goodFcs (request ownerAddr 3 [0x00#8, 0x65#8, 0x00#8, 0x00#8]) = true ∧
      goodFcs (request ownerAddr 0x82 []) = true ∧ goodFcs (openFrame driveAddr ownerAddr) = true := by decide +kernel

/-- Port 5 down, or at 1000 Mb/s. -/
def port5 (s : State) (l : LinkState) : State := onPort s 5 fun ps => { ps with link := l }

theorem witness_AssertedResetCutsAndHoldsTheDevice :
    ({ idleCell with resetAsserted := true }).resetAsserted = true ∧ Instr.query ≠ .resetAsserted ∧
      ∀ straps, Instr.query ≠ .resetReleased straps := ⟨rfl, by decide, fun _ => by simp⟩

theorem witness_BaseCycleStartAdvancesTheChain :
    (let s := atTick idleCell 7 31249;
      s.resetAsserted = false ∧ s.AtLastTick ∧ s.pending = [] ∧ s.dueEvent = none ∧ s.time.tick + 1 = s.cycleTicks) ∧
    (State.reset.resetAsserted = false ∧ State.reset.time.startDue = true) ∧
    (idleCell.resetAsserted = false ∧ idleCell.pending = [] ∧ idleCell.dueEvent = none ∧
      idleCell.time.tick + 1 ≠ idleCell.cycleTicks) := by
  unfold State.AtLastTick
  decide +kernel

/-- Port 0 FAULT, port 1 GOOD, the others BAD. -/
def mixedLines : Vector PhyLines 8 := (lowLines.set 0 ⟨true, true, true⟩).set 1 ⟨true, true, false⟩

theorem witness_LinkStateFollowsItsSamples :
    (State.reset.resetAsserted = false ∧ State.reset.time.startDue = true) ∧
      (let s := atTick idleCell 3 31249;
        s.resetAsserted = false ∧ s.time.tick + 1 = s.cycleTicks ∧ s.time.startDue = false ∧
          s.time.boundaryDue = .none) ∧
      mixedLines[(0 : Port)].fault = true ∧
      (mixedLines[(1 : Port)].fault = false ∧ mixedLines[(1 : Port)].link = true) ∧
      (mixedLines[(2 : Port)].fault = false ∧ mixedLines[(2 : Port)].link = false) := by decide +kernel

/-- `s` with the non-reply places of port 2 taken (R116). -/
def crowded (s : State) : State :=
  onPort s 2 fun ps =>
    { ps with
      controlQueue :=
        List.replicate 8 { dest := ownerAddr, cls := .other, message := .notice .active 7 0 .empty none } }

theorem witness_DepartureSuspendsTheRecordsOfThePort :
    let r := stream101 .active
    let s := running .active
    let down := onPort s 2 fun ps => { ps with link := .down }
    (s.recordAt 3 = some r ∧ s.portUp r.ownerPort = true ∧ (s.ports[r.ownerPort]).nonReplies < 8) ∧
      (down.recordAt 3 = some r ∧ down.portUp r.ownerPort = false) ∧
      ((crowded s).recordAt 3 = some r ∧ 8 ≤ ((crowded s).ports[r.ownerPort]).nonReplies) ∧
      (r.onPort 5 = true ∧ r.state = .active ∧ r.onPort 6 = false) ∧
      ((running .ending).recordAt 3 = some (stream101 .ending) ∧ (stream101 .ending).state ≠ .active ∧
        (stream101 .ending).state ≠ .dormant) := by decide +kernel

theorem witness_ArrivalEndsOrResumesSuspendedRecords :
    let r := stream101 .suspended
    let fast := port5 (running .suspended) (.up .mb1000)
    let back := running .suspended
    let down := onPort (running .suspended) 2 fun ps => { ps with link := .down }
    (fast.recordAt 3 = some r ∧ r.onPort 5 = true ∧ r.state = .suspended ∧
      ∃ l ∈ r.legs, ∃ v, fast.portSpeed l.egress = some v ∧ v ≠ l.speed) ∧
    (back.recordAt 3 = some r ∧ (¬∃ l ∈ r.legs, ∃ v, back.portSpeed l.egress = some v ∧ v ≠ l.speed) ∧
      ∀ l ∈ r.legs, back.portUp l.ingress = true ∧ back.portSpeed l.egress = some l.speed) ∧
    (down.recordAt 3 = some r ∧ (¬∃ l ∈ r.legs, ∃ v, down.portSpeed l.egress = some v ∧ v ≠ l.speed) ∧
      ¬∀ l ∈ r.legs, down.portUp l.ingress = true ∧ down.portSpeed l.egress = some l.speed) ∧
    r.onPort 6 = false ∧ ((running .active).recordAt 3 = some (stream101 .active)) ∧
    ((back.portUp r.ownerPort = true ∧ (back.ports[r.ownerPort]).nonReplies < 8) ∧ down.portUp r.ownerPort = false ∧
      ((crowded back).recordAt 3 = some r ∧ 8 ≤ ((crowded back).ports[r.ownerPort]).nonReplies)) := by
  simp only [← State.otherSpeed_iff, ← State.legsUp_iff]
  decide +kernel

/-- The end of the settle period is due. -/
def settled : State :=
  { State.reset with
    time := { State.reset.time with settle := 0, startDue := false, boundaryDue := .endOfSettle } }

/-- The last base cycle of the settle period is at its last tick. -/
def settlingEnds : State :=
  { State.reset with time := { State.reset.time with tick := 15624, settle := 1, startDue := false } }

theorem witness_EndOfSettleOpensHypercycleZero :
    ((settled.resetAsserted = false ∧ settled.time.boundaryDue = .endOfSettle ∧ settled.store.changeList = [] ∧
      settled.store.pendingH = none ∧ ∀ p : Port, ∀ w ∈ (settled.ports[p]).calendar, w.retiring = false) ∧
      (settlingEnds.resetAsserted = false ∧ settlingEnds.AtLastTick ∧ settlingEnds.time.settle = 1)) ∧
    ∀ (i : Slot) r, settled.recordAt i = some r → r.state ≠ .ending := by
  unfold State.AtLastTick
  exact ⟨by decide +kernel, no_record rfl⟩

/-- A hypercycle boundary is due. -/
def atBoundary (s : State) : State :=
  { s with time := { s.time with b := 0, tick := 0, boundaryDue := .hypercycle } }

/-- The condition under which the generation moves (R63). -/
def moves (s : State) : Prop :=
  (∃ p : Port, ∃ w ∈ (s.ports[p]).calendar, w.retiring = true) ∨ s.store.changeList ≠ [] ∨
    s.store.pendingH.getD s.time.hExp ≠ s.time.hExp

/-- Stream 101 PENDING, its legs staged. -/
def staged101 : State :=
  { running .pending with
    store :=
      { changeList :=
          [{ egress := 5, offset := 9856, length := 2992, rate := 1, phase := 1, slot := 3, leg := .leg0 },
            { egress := 2, offset := 14848, length := 192, rate := 1, phase := 1, slot := 3, leg := .leg1 }]
        generation := 33, pendingH := none }
    ports := idleCell.ports }

/-- The owner, EXECUTING, awaiting `a`. -/
def awaiting (a : Awaited) : Master :=
  { ownerEntry with phase := .executing, request := some ⟨.claim, 7#16⟩, awaited := some a }

/-- The cell with the owner awaiting `a`. -/
def withAwaiting (s : State) (a : Awaited) : State := { s with masters := s.masters.set 0 (some (awaiting a)) }

theorem witness_HypercycleBoundaryCountsAndSwitches :
    (((atBoundary staged101).resetAsserted = false ∧ (atBoundary staged101).time.boundaryDue = .hypercycle ∧
      moves (atBoundary staged101)) ∧
    ((atBoundary idleCell).time.boundaryDue = .hypercycle ∧ ¬moves (atBoundary idleCell)) ∧
    moves { atBoundary idleCell with store := { idleCell.store with pendingH := some 2 } } ∧
    (let s := atTick idleCell 7 31249;
      s.resetAsserted = false ∧ s.AtLastTick ∧ s.time.settle = 0 ∧ 2 ^ s.time.hExp ≤ s.time.b + 1)) ∧
    ∀ a ∈ [Awaited.releasedAtSwitch 101, .cleared none 0 1, .timing],
      (withAwaiting idleCell a).masters[(0 : MasterIndex)] = some (awaiting a) ∧
        (awaiting a).request = some ⟨.claim, 7#16⟩ ∧ (awaiting a).awaited = some a := by
  unfold moves State.AtLastTick
  decide +kernel

theorem witness_SwitchInstallsThePlannedView :
    (((running .active).ports[5]).calendar.Pairwise fun a b => windowBefore b a = false) ∧
      ∃ b w, b < 2 ^ ((running .active).store.pendingH.getD (running .active).time.hExp) ∧
        w ∈ ((calendarSwitch (running .active)).ports[(5 : Port)]).calendar ∧ b % 2 ^ w.rate = w.phase :=
  ⟨by decide +kernel, 1, window0, by decide +kernel⟩

theorem witness_BoundaryFreesEndingRecords :
    let r := stream101 .ending
    let s := atBoundary (running .ending)
    let down := onPort s 2 fun ps => { ps with link := .down }
    let waited := atBoundary (withStream { r with waiters := [0] })
    ((s.resetAsserted = false ∧ s.time.boundaryDue = .hypercycle ∧ s.recordAt 3 = some r ∧ r.state = .ending) ∧
      (r.owner ∉ r.waiters ∧ (freeRecord 3 s).portUp 2 = true ∧ ((freeRecord 3 s).ports[(2 : Port)]).nonReplies < 8) ∧
      (down.recordAt 3 = some r ∧ (freeRecord 3 down).portUp 2 = false) ∧
      (waited.recordAt 3 = some { r with waiters := [0] } ∧ r.owner ∈ [0])) ∧
    s.AddressesDistinct ∧ ∃ t, exec .hypercycleBoundary s = .next t :=
  ⟨by decide +kernel, distinct_of_two rfl (by decide), next_of_answersNext (by decide +kernel)⟩

theorem witness_BoundaryInstallsPendingRecords :
    let r := stream101 .pending
    let e : StagedLeg :=
      { egress := 5, offset := 9856, length := 2992, rate := 1, phase := 1, slot := 3, leg := .leg0 }
    let up := atBoundary (withAwaiting staged101 (.grant 3))
    let down := port5 up .down
    let fast := port5 up (.up .mb1000)
    ((up.resetAsserted = false ∧ up.time.boundaryDue = .hypercycle ∧ up.recordAt 3 = some r ∧ r.state = .pending ∧
      e ∈ up.store.changeList ∧ e.slot = 3 ∧ e.leg = .leg0 ∧
      up.masters[r.owner] = some (awaiting (.grant 3)) ∧ (awaiting (.grant 3)).awaited = some (.grant 3) ∧
      ∀ l ∈ r.legs, up.portUp l.ingress = true ∧ up.portSpeed l.egress = some l.speed) ∧
    (down.recordAt 3 = some r ∧ e ∈ down.store.changeList ∧ down.masters[r.owner] = some (awaiting (.grant 3)) ∧
      (¬∀ l ∈ r.legs, down.portUp l.ingress = true ∧ down.portSpeed l.egress = some l.speed) ∧
      ¬∃ l ∈ r.legs, ∃ v, down.portSpeed l.egress = some v ∧ v ≠ l.speed) ∧
    (fast.recordAt 3 = some r ∧ e ∈ fast.store.changeList ∧ fast.masters[r.owner] = some (awaiting (.grant 3)) ∧
      ∃ l ∈ r.legs, ∃ v, fast.portSpeed l.egress = some v ∧ v ≠ l.speed)) ∧
    ∀ s ∈ [up, down, fast], ∃ t, exec .hypercycleBoundary s = .next t := by
  simp only [← State.otherSpeed_iff, ← State.legsUp_iff]
  refine ⟨by decide +kernel, fun s hs => next_of_answersNext ?_⟩
  simp only [List.mem_cons, List.not_mem_nil, or_false] at hs
  rcases hs with rfl | rfl | rfl <;> decide +kernel

theorem witness_SweepRemovesTheUnseenUnpinned :
    let s := { idleCell with ageing := { agePeriod := 300, sweepCount := 1200000 } }
    s.resetAsserted = false ∧ sweepPeriod s.straps.cyc s.ageing.agePeriod ≤ s.ageing.sweepCount := by decide +kernel

/-- A station table with no free place. -/
def fullTable : State :=
  { idleCell with
    stations := Vector.ofFn fun j : Fin 256 =>
      some { addr := 0x020000010000#48 + BitVec.ofNat 48 j, port := 0, seen := true, pins := 0 } }

theorem fullTable_station (j : Place) :
    fullTable.stations[j]
      = some { addr := 0x020000010000#48 + BitVec.ofNat 48 j, port := 0, seen := true, pins := 0 } := by
  simp [fullTable]

theorem fullTable_unknown : ∀ j : Place, 0x020000010000#48 + BitVec.ofNat 48 j ≠ adminAddr := by decide +kernel

theorem witness_LearningFollowsItsTable :
    let e : Station := { addr := driveAddr, port := 5, seen := false, pins := 0 }
    let pinned : Station := { e with pins := 1 }
    (isGroup 0xFFFFFFFFFFFF#48 = true ∧ idleCell.deviceAddr = 0x0E5A00000804#48 ∧
      isGroup adminAddr = false ∧ adminAddr ≠ idleCell.deviceAddr ∧ idleCell.stations[(2 : Place)] = none ∧
      (∀ k : Place, k < 2 → (idleCell.stations[k]).isSome = true) ∧
      idleCell.stations[(1 : Place)] = some e ∧ e.addr = driveAddr ∧ e.pins = 0 ∧
      (running .active).stations[(1 : Place)] = some pinned ∧ pinned.addr = driveAddr ∧ pinned.port ≠ 4 ∧
      0 < pinned.pins) ∧
    (∀ (j : Place) e', idleCell.stations[j] = some e' → e'.addr ≠ adminAddr) ∧
    (∀ (k : Place) e', idleCell.stations[k] = some e' → e'.addr = driveAddr → k = 1) ∧
    (∀ (k : Place) e', (running .active).stations[k] = some e' → e'.addr = driveAddr → k = 1) ∧
    (∀ (j : Place) e', fullTable.stations[j] = some e' → e'.addr ≠ adminAddr) ∧
    ∀ j : Place, (fullTable.stations[j]).isSome = true := by
  refine ⟨by decide +kernel, each_station rfl (by decide) (by decide), each_station rfl (by decide) (by decide),
    each_station rfl (by decide) (by decide), fun j e he => ?_, fun j => by rw [fullTable_station]; rfl⟩
  rw [fullTable_station] at he
  cases he
  exact fullTable_unknown j

theorem witness_OpenFramesAreForwardedByTheTable :
    let f := openFrame driveAddr ownerAddr
    let e : Station := { addr := driveAddr, port := 5, seen := false, pins := 0 }
    goodFcs f = true ∧
    (idleCell.resetAsserted = false ∧ idleCell.portUp 2 = true ∧ 64 ≤ f.length ∧ f.length ≤ 1522 ∧
      etherTypeOf f ≠ 0x9A71 ∧ etherTypeOf f ≠ 0x9A72 ∧
      destinationOf (openFrame 0x0E5A00000804#48 ownerAddr) = idleCell.deviceAddr ∧
      destinationOf (openFrame 0xFFFFFFFFFFFF#48 ownerAddr) ≠ idleCell.deviceAddr ∧
      isGroup (destinationOf (openFrame 0xFFFFFFFFFFFF#48 ownerAddr)) = true ∧
      isGroup (destinationOf f) = false ∧ destinationOf f ≠ idleCell.deviceAddr ∧
      idleCell.stations[(1 : Place)] = some e ∧ e.addr = destinationOf f) ∧
    (∀ (j : Place) e', idleCell.stations[j] = some e' → e'.addr ≠ destinationOf (openFrame adminAddr ownerAddr)) ∧
    ∀ (k : Place) e', idleCell.stations[k] = some e' → e'.addr = e.addr → k = 1 :=
  ⟨goodFcs_of_frames.2.2.2, by decide +kernel, each_station rfl (by decide +kernel) (by decide +kernel),
    each_station rfl (by decide) (by decide)⟩

theorem witness_MovesAndClearsEndOrCancelRecords :
    let s := withAwaiting staged101 (.grant 3)
    let e := awaiting (.grant 3)
    (s.recordAt 3 = some (stream101 .pending) ∧ (stream101 .pending).state = .pending ∧
      s.masters[(stream101 .pending).owner] = some e ∧ e.awaited = some (.grant 3) ∧ e.phase = .executing ∧
      e.request = some ⟨.claim, 7#16⟩) ∧
    ((running .dormant).recordAt 3 = some (stream101 .dormant) ∧ (stream101 .dormant).state = .dormant) ∧
    ((running .ending).recordAt 3 = some (stream101 .ending) ∧ (stream101 .ending).state = .ending) ∧
    ((fun r : Record => r.onPort 5) (stream101 .active) = true ∧
      (fun r : Record => r.onPort 6) (stream101 .active) = false) ∧
    (running .active).recordAt 4 = none := by decide +kernel

theorem witness_SchedulersTouchOnlyEgress :
    ((onPort idleCell 2 fun ps => { ps with tx := .busy .openFrame [] 5000001 }).ports[2]).tx ≠ .free := by
  decide +kernel

/-- The live instance of leg 0's window in base cycle 3, ending `t` ticks from the tick 5,000,000. -/
def live0 (n t : Nat) : CurrentInstance :=
  .window { slot := 3, leg := .leg0, b := 3, cls := .live, sent := n, endAt := 5000000 + t }

/-- A frame of one byte, ready. -/
def readyByte : HoldEntry := { frame := [0x00#8], readyAt := 4999000, mark := .ready }

theorem witness_NoFrameRunsPastItsBound :
    let g : ControlFrame := replyTo 0 ownerEntry ⟨.release, 0#16⟩ .noStream (.stream 7)
    let live := onPort (withQueue0 (running .active) [readyByte]) 5 fun ps => { ps with current := live0 1 840 }
    let open2 := onPort idleCell 2 fun ps => { ps with openQueue := [[0x00#8]] }
    let control2 := onPort idleCell 2 fun ps => { ps with controlQueue := [g] }
    let settling2 := { open2 with time := { open2.time with b := 0, hypercycle := 0, tick := 31229, settle := 1 } }
    ((live.ports[5]).tx = .free ∧ (open2.ports[2]).tx = .free ∧ (control2.ports[2]).tx = .free ∧
      0 < settling2.time.settle ∧ (settling2.ports[2]).tx = .free ∧ open2.portSpeed 2 = some .mb1000 ∧
      (port5 idleCell .down).portSpeed 5 = none ∧
      (let s := onPort control2 2 fun ps => { ps with longestOpen := 83 };
        s.portSpeed 2 = some .mb1000 ∧ (s.ports[2]).controlQueue = [g] ∧
          (s.ports[2]).longestOpen < (64 + 20) * ticksPerByte .mb1000)) ∧
    (∃ f, ((chooseFrame 5 live).ports[(5 : Port)]).tx = .busy (.window 3 .leg0) f 5000210) ∧
    (∃ f, ((chooseFrame 2 open2).ports[(2 : Port)]).tx = .busy .openFrame f 5000021) ∧
    (∃ f, ((chooseFrame 2 control2).ports[(2 : Port)]).tx = .busy (.control g) f 5000084) ∧
    ∃ f, ((chooseFrame 2 settling2).ports[(2 : Port)]).tx = .busy .openFrame f 5000021 := by
  refine ⟨by decide +kernel, ?_, ?_, ?_, ?_⟩ <;> exact tx_of_busyUntil (by decide +kernel)

/-- Both heads queued on port 2, `n` ticks before the next beacon window. -/
def bothHeads (n : Nat) : State :=
  onPort (atTick idleCell 7 (31250 - n)) 2 fun ps =>
    { ps with
      controlQueue := [{ dest := ownerAddr, cls := .other, message := .notice .active 7 0 .empty none }]
      openQueue := [[0x00#8]] }

theorem witness_LiveInstanceSendsItsReadyHead :
    (let s := onPort (withQueue0 (running .active) [readyByte]) 5 fun ps => { ps with current := live0 1 840 };
      s.portSpeed 5 = some .mb100 ∧ (s.ports[5]).tx = .free ∧ (s.ports[5]).current = live0 1 840 ∧
      s.recordAt 3 = some (stream101 .active) ∧ (stream101 .active).leg .leg0 = some leg0 ∧
      (s.slots[3]).queue .leg0 = readyByte :: []) ∧
    (∀ n ∈ [84, 83, 21, 20], (bothHeads n).portSpeed 2 = some .mb1000 ∧ ((bothHeads n).ports[(2 : Port)]).tx = .free ∧
      ((bothHeads n).ports[(2 : Port)]).current = .none ∧ (bothHeads n).time.settle = 0 ∧
      (bothHeads n).time.boundaryDue = .none ∧ ((bothHeads n).ports[(2 : Port)]).openQueue = [[0x00#8]] ∧
      ∀ w ∈ ((bothHeads n).ports[(2 : Port)]).calendar, (bothHeads n).bounding w = true ∧
        w.distance (bothHeads n).cycleTicks (bothHeads n).time.b (bothHeads n).time.tick = n) ∧
    (84 * ticksPerByte .mb1000 = 84 ∧ ([0x00#8].length + 20) * ticksPerByte .mb1000 = 21) ∧
    (0 < State.reset.time.settle ∧ settled.time.boundaryDue = .endOfSettle) ∧
    ((port5 idleCell .down).portSpeed 5 = none ∧
      ((onPort idleCell 2 fun ps => { ps with tx := .busy .openFrame [] 5000001 }).ports[2]).tx ≠ .free) ∧
    (let s := onPort (running .active) 5 fun ps => { ps with current := live0 1 840 };
      (s.ports[5]).current = live0 1 840 ∧ (s.slots[3]).queue .leg0 = []) := by decide +kernel

theorem witness_TransmissionEndFreesTransmitterAndMaster :
    (let g : ControlFrame := replyTo 0 ownerEntry ⟨.release, 0#16⟩ .noStream (.stream 7);
      let e : Master := { ownerEntry with phase := .replyDue, request := some ⟨.release, 0#16⟩ }
      let s := { onPort idleCell 2 fun ps => { ps with tx := .busy (.control g) [] 5000000 } with
        masters := idleCell.masters.set 0 (some e) }
      s.resetAsserted = false ∧ (s.ports[2]).tx = .busy (.control g) [] 5000000 ∧ 5000000 ≤ s.time.now ∧
        g.cls = .reply 0 ∧ s.masters[0] = some e ∧ e.phase = .replyDue) ∧
    (let s := onPort idleCell 2 fun ps => { ps with tx := .busy .beacon [] 5000000 };
      (s.ports[2]).tx = .busy .beacon [] 5000000 ∧ 5000000 ≤ s.time.now) ∧
    ∀ (g : ControlFrame) (m : MasterIndex), Claimant.beacon = .control g → g.cls ≠ .reply m := by
  refine ⟨by decide +kernel, by decide +kernel, fun _ _ h => by cases h⟩

/-- An instance of slot 4 that ends at the tick 5,000,000, the last frame of which ends there too, on port 5: its window
touches the one that opens there (R12, R139). -/
def touched (s : State) : State :=
  onPort s 5 fun ps =>
    { ps with
      tx := .busy (.window 4 .leg0) [] 5000000
      current := .window { slot := 4, leg := .leg0, b := 3, cls := .live, sent := 1, endAt := 5000000 } }

/-- The opening of leg 0's window is due on port 5, and its record is in the state `st`. -/
def opening0 (st : RecordState) : State := atTick (running st) 3 9856

theorem witness_OpeningsAreRaisedAtTheirOffsets :
    let s := opening0 .active
    let opened := onPort s 5 fun ps => { ps with current := live0 0 2992 }
    (∀ v ∈ (s.ports[5]).calendar, v.owner = window0.owner → v = window0) ∧
      s.openingOf 5 window0.owner = some window0 ∧ (touched s).openingOf 5 window0.owner = some window0 ∧
      ((opened.ports[5]).current = live0 0 2992 ∧ window0.owner = .leg 3 .leg0 ∧
        s.time.now + window0.length = 5000000 + 2992) := by decide +kernel

/-- The content of a beacon. -/
def someBeacon : BeaconContent :=
  { unit := 4, hypercycle := 9, generation := 33, cyc := 1, hExp := 3, held := false, queueLength := 0 }

theorem witness_BeaconStartsAtItsOpening :
    let s := { atTick idleCell 0 0 with beacon := some someBeacon }
    let busy (t : Nat) := onPort s 2 fun ps => { ps with tx := .busy .openFrame [] t }
    let down := onPort s 2 fun ps => { ps with link := .down }
    (s.resetAsserted = false ∧ s.openingOf 2 .beacon = some (beaconWindow 3) ∧ s.beacon = some someBeacon ∧
      s.portSpeed 2 = some .mb1000 ∧ ((clearForOpening 2 s).ports[(2 : Port)]).tx = .free) ∧
    ((busy 5000000).openingOf 2 .beacon = some (beaconWindow 3) ∧ (busy 5000000).portSpeed 2 = some .mb1000 ∧
      transmissionEnded 2 (busy 5000000) = true ∧
      ((clearForOpening 2 (busy 5000000)).ports[(2 : Port)]).tx = .free) ∧
    ((busy 5000001).openingOf 2 .beacon = some (beaconWindow 3) ∧
      ((clearForOpening 2 (busy 5000001)).ports[(2 : Port)]).tx ≠ .free) ∧
    (down.openingOf 2 .beacon = some (beaconWindow 3) ∧ down.portSpeed 2 = none) ∧
    ((atTick idleCell 0 0).openingOf 2 .beacon = some (beaconWindow 3) ∧ (atTick idleCell 0 0).beacon = none) := by
  decide +kernel

/-- What `witness_OpeningIsClassedLiveOrLent` shows of a state at the opening of leg 0's window. -/
def opensOn (s : State) (r : Record) (free : Bool) : Prop :=
  s.resetAsserted = false ∧ s.openingOf 5 (.leg 3 .leg0) = some window0 ∧ (clearForOpening 5 s).recordAt 3 = some r ∧
    decide (((clearForOpening 5 s).ports[(5 : Port)]).tx = .free) = free

theorem witness_OpeningIsClassedLiveOrLent :
    let waking := { stream101 .dormant with wake := ⟨true, false⟩ }
    (opensOn (opening0 .active) (stream101 .active) true ∧
      opensOn (touched (opening0 .active)) (stream101 .active) true ∧
      (transmissionEnded 5 (touched (opening0 .active)) = true ∧
        instanceEnded 5 (endTransmission 5 (touched (opening0 .active))) = true)) ∧
    (opensOn (opening0 .suspended) (stream101 .suspended) true ∧
      opensOn (touched (opening0 .dormant)) (stream101 .dormant) true ∧ (stream101 .dormant).wake.has .leg0 = false) ∧
    opensOn (onPort (opening0 .active) 5 fun ps => { ps with tx := .busy .openFrame [] 5000001 }) (stream101 .active)
      false ∧
    (opensOn (atTick (withStream waking) 3 9856) waking true ∧
      opensOn (touched (atTick (withStream waking) 3 9856)) waking true ∧ waking.wake.has .leg0 = true) := by
  unfold opensOn
  decide +kernel

theorem witness_WakingMakesTheRecordActive :
    let s := running .dormant
    let down := onPort s 2 fun ps => { ps with link := .down }
    (s.recordAt 3 = some (stream101 .dormant) ∧ s.portUp 2 = true ∧ (s.ports[2]).nonReplies < 8) ∧
      (down.recordAt 3 = some (stream101 .dormant) ∧ down.portUp 2 = false) := by decide +kernel

theorem witness_WindowEndClosesTheInstance :
    let w : WindowInstance := { slot := 3, leg := .leg0, b := 3, cls := .live, sent := 0, endAt := 5000000 }
    let beacon := onPort idleCell 5 fun ps => { ps with current := .beacon 5000000 }
    let lent := onPort (running .active) 5 fun ps => { ps with current := .window { w with cls := .lent } }
    let active := onPort (running .active) 5 fun ps => { ps with current := .window w }
    let hold := onPort (running .suspended) 5 fun ps => { ps with current := .window w }
    let drop := onPort hold 5 fun ps => { ps with policy := { ps.policy with late := .drop } }
    (beacon.resetAsserted = false ∧ (beacon.ports[5]).current = .beacon 5000000 ∧ 5000000 ≤ beacon.time.now) ∧
    (lent.resetAsserted = false ∧ (lent.ports[5]).current = .window { w with cls := .lent } ∧
      w.endAt ≤ lent.time.now) ∧
    ((active.ports[5]).current = .window w ∧ w.endAt ≤ active.time.now ∧ w.cls ≠ .lent ∧
      active.recordAt w.slot = some (stream101 .active)) ∧
    ((hold.ports[5]).current = .window w ∧ w.endAt ≤ hold.time.now ∧ w.cls ≠ .lent ∧
      hold.recordAt w.slot = some (stream101 .suspended) ∧ (stream101 .suspended).state ≠ .active ∧
      (hold.ports[5]).policy.late = .hold) ∧
    ((drop.ports[5]).current = .window w ∧ drop.recordAt w.slot = some (stream101 .suspended) ∧
      (drop.ports[5]).policy.late = .drop) := by decide +kernel

theorem witness_MissedWindowIsCounted :
    (running .active).recordAt 3 = some (stream101 .active) ∧ (stream101 .active).leg .leg0 = some leg0 ∧
      { leg0 with misses := 1 }.misses < ((running .active).ports[(5 : Port)]).policy.missLimit := by decide +kernel

theorem witness_DeliveredWindowIsCounted :
    (let s := running .active;
      s.recordAt 3 = some (stream101 .active) ∧ (∀ p : Port, 0 < (s.ports[p]).policy.missLimit) ∧
        (stream101 .active).leg1 = some leg1 ∧ (stream101 .active).remaining = some (1 + 2)) ∧
    (withStream { stream101 .active with remaining := none }).recordAt 3
      = some { stream101 .active with remaining := none } ∧
    (withStream { stream101 .active with remaining := some 1 }).recordAt 3
      = some { stream101 .active with remaining := some 1 } := by decide +kernel

theorem witness_DormancyWhenEveryLegIsAtItsLimit :
    let r := { stream101 .active with leg0 := { leg0 with misses := 3 }, leg1 := some { leg1 with misses := 4 } }
    let s := withStream r
    let down := onPort s 2 fun ps => { ps with link := .down }
    (s.portUp 2 = true ∧ (s.ports[2]).nonReplies < 8) ∧ down.portUp 2 = false ∧
      8 ≤ ((crowded s).ports[(2 : Port)]).nonReplies ∧ r.leg .leg0 = some { leg0 with misses := 3 } ∧
      ∀ t ∈ [s, down, crowded s], t.recordAt 3 = some r ∧
        ∀ k ∈ { leg0 with misses := min (3 + 1) 15 } :: (some { leg1 with misses := 4 }).toList,
          (t.ports[k.egress]).policy.missLimit ≤ k.misses := by decide +kernel

/-- A frame of one byte, waiting, due now. -/
def waitingByte : HoldEntry := { frame := [0x00#8], readyAt := 5000000, mark := .waiting }

theorem witness_ReadinessIsOnTimeOrLate :
    let s := withQueue0 (running .active) (readyByte :: waitingByte :: [])
    let inside := onPort s 5 fun ps => { ps with current := live0 0 100 }
    (s.resetAsserted = false ∧ s.recordAt 3 = some (stream101 .active) ∧ (stream101 .active).leg .leg0 = some leg0 ∧
      (s.slots[3]).queue .leg0 = [readyByte] ++ waitingByte :: [] ∧ (∀ x ∈ [readyByte], x.mark ≠ .waiting) ∧
      waitingByte.mark = .waiting ∧ waitingByte.readyAt ≤ s.time.now ∧
      (s.ports[leg0.egress]).current = .none) ∧
    (inside.recordAt 3 = some (stream101 .active) ∧
      (inside.slots[3]).queue .leg0 = [readyByte] ++ waitingByte :: [] ∧
      (inside.ports[leg0.egress]).current = live0 0 100) := by decide +kernel

theorem witness_DistanceReachesTheNextOpening :
    (1 < 2 ^ 1 ∧ 9856 < 31250 ∧ 20000 < 31250) ∧
      ((0 + 0) % 31250 = 0 ∧ (0 + (0 + 0) / 31250) % 2 ^ 3 = 0) := by decide

theorem witness_UnfitFramesAreDiscarded :
    (onPort idleCell 2 fun ps => { ps with link := .down }).portUp 2 = false ∧
    (idleCell.resetAsserted = false ∧ idleCell.portUp 2 = true ∧ goodFcs [0x00#8, 0x00#8, 0x00#8, 0x00#8, 0x00#8] = false) ∧
    1522 < (List.replicate 1523 0x00#8).length ∧ (List.replicate 63 0x00#8).length < 64 := by decide +kernel

theorem witness_StraysAreCountedAndDiscarded :
    goodFcs (motion 101) = true ∧
    (idleCell.resetAsserted = false ∧ idleCell.portUp 2 = true ∧ 64 ≤ (motion 101).length ∧
      (motion 101).length ≤ 1522 ∧ etherTypeOf (motion 101) = 0x9A71) ∧
    ∀ (i : Slot) (r : Record), idleCell.recordAt i = some r → ∀ (n : LegNo) (l : Leg),
      streamFieldOf (motion 101) = i.val * 32 + (idleCell.slots[i]).reuse.toNat →
      r.state = .active ∨ r.state = .dormant → r.leg n = some l → l.ingress ≠ 2 :=
  ⟨goodFcs_of_frames.1, by decide +kernel, no_record rfl⟩

theorem witness_AcceptedMotionFramesAreHeld :
    let s := running .active
    goodFcs (motion 101) = true ∧ s.resetAsserted = false ∧ s.portUp 5 = true ∧ 64 ≤ (motion 101).length ∧
      (motion 101).length ≤ 1522 ∧ etherTypeOf (motion 101) = 0x9A71 ∧
      streamFieldOf (motion 101) = (3 : Slot).val * 32 + (s.slots[(3 : Slot)]).reuse.toNat ∧
      s.recordAt 3 = some (stream101 .active) ∧ (stream101 .active).state = .active ∧
      (stream101 .active).leg .leg1 = some leg1 ∧ leg1.ingress = 5 ∧ (stream101 .active).leg0.ingress ≠ 5 :=
  ⟨goodFcs_of_frames.1, by decide +kernel⟩

/-- The owner's entry, its claim in hand. -/
def busyOwner : Master := { ownerEntry with phase := .executing, request := some ⟨.claim, 7#16⟩, awaited := some (.grant 4) }

/-- A master table with every entry taken. -/
def fullMasters : State :=
  { idleCell with masters := Vector.replicate 16 (some { ownerEntry with port := 3 }) }

/-- The RELEASE of stream 101 and the HOLD as frames; the FCS is not looked at behind the classifier. -/
def releaseFrame : Frame := request ownerAddr 2 [0x00#8, 0x65#8]

/-- A request of kind `k` with no body. -/
def bareRequest (k : Nat) : Frame := request ownerAddr k []

theorem witness_DoorRefusesInOrder :
    let s := { running .active with masters := (Vector.replicate 16 none).set 0 (some busyOwner) }
    (0 < State.reset.time.settle ∧ settled.time.boundaryDue = .endOfSettle ∧
      (idleCell.time.settle = 0 ∧ idleCell.time.boundaryDue ≠ .endOfSettle ∧
        requestKindOf (kindOf (bareRequest 0x0D)) = none) ∧
      (requestKindOf (kindOf (bareRequest 0x02)) = some .release ∧
        bodyLengthOf (bareRequest 0x02) ≠ RequestKind.release.bodyLength) ∧
      (requestKindOf (kindOf (bareRequest 0x06)) = some .hold ∧
        bodyLengthOf (bareRequest 0x06) = RequestKind.hold.bodyLength ∧ (2 : Port) ≠ idleCell.straps.adm) ∧
      (requestKindOf (kindOf releaseFrame) = some .release ∧
        bodyLengthOf releaseFrame = RequestKind.release.bodyLength) ∧
      (s.masters[(0 : MasterIndex)] = some busyOwner ∧ busyOwner.port = 2 ∧ busyOwner.addr = sourceOf releaseFrame ∧
        busyOwner.phase ≠ .idle ∧ busyOwner.request = some ⟨.claim, 7#16⟩)) ∧
    (∀ (j : MasterIndex) e', s.masters[j] = some e' → e'.port = 2 ∧ e'.addr = sourceOf releaseFrame → j = 0) ∧
    ∀ m : MasterIndex, ∃ e, fullMasters.masters[m] = some e ∧ ¬(e.port = 2 ∧ e.addr = sourceOf releaseFrame) :=
  ⟨by decide +kernel, each_master (by decide +kernel),
    fun m => ⟨{ ownerEntry with port := 3 }, by simp [fullMasters], by simp⟩⟩

theorem witness_AcceptedRequestsJoinTheQueue :
    let s := running .active
    (s.time.settle = 0 ∧ s.time.boundaryDue ≠ .endOfSettle ∧ requestKindOf (kindOf releaseFrame) = some .release ∧
      bodyLengthOf releaseFrame = RequestKind.release.bodyLength ∧
      decodeBody .release releaseFrame = .queued (.release 101) ∧
      s.masters[(0 : MasterIndex)] = some ownerEntry ∧ ownerEntry.port = 2 ∧
      ownerEntry.addr = sourceOf releaseFrame ∧ ownerEntry.phase = .idle ∧ ownerEntry.awaited = none ∧
      idleCell.masters[(0 : MasterIndex)] = none) ∧
    (∀ (j : MasterIndex) e', s.masters[j] = some e' → e'.port = 2 ∧ e'.addr = sourceOf releaseFrame → j = 0) ∧
    (∀ j : MasterIndex, j < 0 → (idleCell.masters[j]).isSome = true) ∧
    ∀ (j : MasterIndex) e', idleCell.masters[j] = some e' → ¬(e'.port = 2 ∧ e'.addr = sourceOf releaseFrame) :=
  ⟨by decide +kernel, each_master (by decide +kernel), fun j h => absurd h (Fin.not_lt_zero j),
    each_master (by decide +kernel)⟩

theorem witness_ControlFramesAreLearnedThenTaken :
    let sent := request ownerAddr 0x82 []
    let f := request ownerAddr 3 [0x00#8, 0x65#8, 0x00#8, 0x00#8]
    (goodFcs sent = true ∧ goodFcs f = true) ∧
    (idleCell.resetAsserted = false ∧ idleCell.portUp 2 = true ∧ 64 ≤ sent.length ∧ sent.length ≤ 1522 ∧
      etherTypeOf sent = 0x9A72 ∧ destinationOf sent = BitVec.allOnes 48 ∧ kindOf sent = 0x82) ∧
    (64 ≤ f.length ∧ f.length ≤ 1522 ∧ etherTypeOf f = 0x9A72 ∧
      destinationOf f = BitVec.allOnes 48 ∧ sourceOf f ≠ idleCell.deviceAddr ∧ isGroup (sourceOf f) = false ∧
      kindOf f ≠ 0x80 ∧ kindOf f ≠ 0x81 ∧ kindOf f ≠ 0x82 ∧ idleCell.time.settle = 0 ∧
      idleCell.time.boundaryDue ≠ .endOfSettle ∧ requestKindOf (kindOf f) = some .query ∧
      bodyLengthOf f = RequestKind.query.bodyLength ∧
      decodeBody .query f = .immediate (.query 101 .empty 0)) :=
  ⟨⟨goodFcs_of_frames.2.2.1, goodFcs_of_frames.2.1⟩, by decide +kernel⟩

/-- An immediate request of the owner. -/
def askNow (body : ImmediateBody) : ImmediateRequest := { port := 2, addr := ownerAddr, tag := 7#16, body := body }

theorem witness_QueryShowsTheRecordThenClears :
    let rq := askNow (.query 101 .empty 2)
    let first := askNow (.readPort 0 false)
    let s := { running .active with inbox := [first] ++ rq :: [] }
    let down := onPort s 2 fun ps => { ps with link := .down }
    (s.resetAsserted = false ∧ s.inbox = [first] ++ rq :: [] ∧
      (∀ x ∈ [first], ∀ n' c' p', x.body ≠ .query n' c' p') ∧ rq.body = .query 101 .empty 2) ∧
    (down.inbox = [first] ++ rq :: [] ∧ down.portUp rq.port = false) ∧
    (s.recordAt 3 = some (stream101 .active) ∧
      (3 : Slot).val * 32 + (s.slots[(3 : Slot)]).reuse.toNat = 101 ∧ s.portUp rq.port = true ∧
      (s.ports[rq.port]).nonReplies < 8 ∧ (stream101 .active).leg1 = some leg1) ∧
    (∀ (i : Slot) r, idleCell.recordAt i = some r → i.val * 32 + (idleCell.slots[i]).reuse.toNat ≠ 101) ∧
    (withStream { stream101 .active with leg1 := none }).recordAt 3
      = some { stream101 .active with leg1 := none } := by
  refine ⟨⟨rfl, rfl, by simp [askNow], rfl⟩, by decide +kernel, by decide +kernel, no_record rfl,
    by decide +kernel⟩

theorem witness_ReadCalendarShowsTheCalendar :
    let rq := askNow (.readCalendar 7 0)
    let first := askNow (.query 101 .empty 2)
    let s := { running .active with inbox := [first] ++ rq :: [] }
    s.resetAsserted = false ∧ s.inbox = [first] ++ rq :: [] ∧
      (∀ x ∈ [first], ∀ p' f', x.body ≠ .readCalendar p' f') ∧ rq.body = .readCalendar 7 0 ∧
      (7 : Port).val = 7 ∧ (askNow (.readCalendar 8 0)).body = .readCalendar 8 0 ∧ 7 < 8 := by
  refine ⟨rfl, rfl, by simp [askNow], rfl, rfl, rfl, by decide⟩

theorem witness_ReadPortShowsThenClearsTheCounters :
    let rq := askNow (.readPort 7 true)
    let first := askNow (.query 101 .empty 2)
    let s := { running .active with inbox := [first] ++ rq :: [] }
    let down := onPort s 2 fun ps => { ps with link := .down }
    (s.resetAsserted = false ∧ s.inbox = [first] ++ rq :: [] ∧
      (∀ x ∈ [first], ∀ p' c', x.body ≠ .readPort p' c') ∧ rq.body = .readPort 7 true ∧ (7 : Port).val = 7 ∧
      s.portUp rq.port = true ∧ (s.ports[rq.port]).nonReplies < 8) ∧
    (down.inbox = [first] ++ rq :: [] ∧ down.portUp rq.port = false) ∧
    ((askNow (.readPort 8 true)).body = .readPort 8 true ∧ 7 < 8) := by
  refine ⟨⟨rfl, rfl, by simp [askNow], rfl, rfl, by decide +kernel, by decide +kernel⟩, by decide +kernel,
    rfl, by decide⟩

/-- The owner's claim at the head of the queue of `s`. -/
def claiming (s : State) (c : ClaimFields) : State := asking s 0 newOwner (.claim c)

/-- The request that `claiming` queues. -/
def claimRequest (c : ClaimFields) : Request := { master := 0, port := 2, addr := ownerAddr, body := .claim c }

/-- The plan of leg 0 of stream 101. -/
def plan0 : LegPlan := { egress := 5, speed := .mb100, length := 2992, cap := 15625 }

/-- The plan of its return leg. -/
def plan1 : LegPlan := { egress := 2, speed := .mb1000, length := 192, cap := 15625 }

/-- `s` with a share of 0 on port 5 (R81). -/
def noShare (s : State) : State := onPort s 5 fun ps => { ps with policy := { ps.policy with share := 0 } }

/-- `s` with fifteen places of the change list taken. -/
def oneFree (s : State) : State :=
  { s with
    store :=
      { s.store with
        changeList := List.replicate 15
          { egress := 0, offset := 0, length := 16, rate := 0, phase := 0, slot := 0, leg := .leg0 } } }

/-- Every slot taken. -/
def fullSlots (s : State) : State :=
  { s with
    slots := Vector.replicate 128 { reuse := 0, record := some (stream101 .active), queue0 := [], queue1 := [] } }

/-- Where the claim of stream 101 is placed. -/
def place101 : Placement := { phase := 1, offset0 := 9856, offset1 := some 14848 }

theorem witness_ClaimChecksAreTakenInOrder :
    let s := claiming idleCell claim101
    let rq := claimRequest claim101
    let exact := { claim101 with mode := 1, offset := 28272 }
    let dst : Station := { addr := driveAddr, port := 5, seen := false, pins := 0 }
    (({ s with admission := { s.admission with held := true } }).admission.held = true ∧
      (s.admission.held = false ∧ s.store.pendingH.isSome = false) ∧
      (let t := onPort s 2 fun ps => { ps with policy := { ps.policy with masterCapable := false } };
        (t.ports[rq.port]).policy.masterCapable = false ∧ rq.port ≠ t.straps.adm) ∧
      (s.ports[rq.port]).policy.masterCapable = true ∧
      claimRange s.time.hExp s.cycleTicks { claim101 with rate := 5 } = some 7 ∧
      claimRange s.time.hExp s.cycleTicks claim101 = none ∧
      s.lookup adminAddr rq.addr rq.port = none ∧
      s.lookup ownerAddr rq.addr rq.port = some rq.port ∧
      (s.lookup driveAddr rq.addr rq.port = some 5 ∧ 5 ≠ rq.port) ∧
      ((port5 s .down).lookup driveAddr rq.addr rq.port = some 5 ∧ (port5 s .down).portUp 5 = false) ∧
      (s.portSpeed 5 = some .mb100 ∧ s.portSpeed rq.port = some .mb1000 ∧ s.masters[rq.master] = some newOwner) ∧
      ((asking idleCell 0 { newOwner with held := 8 } (.claim claim101)).masters[rq.master]
        = some { newOwner with held := 8 } ∧ (s.ports[rq.port]).policy.quota ≤ 8) ∧
      (newOwner.held < (s.ports[rq.port]).policy.quota ∧ s.recordAt 0 = none) ∧
      (noShare s).cycleTicks * ((noShare s).ports[(5 : Port)]).policy.share / 64 < 2992 ∧
      (exact.mode = 1 ∧ claimRange s.time.hExp s.cycleTicks exact = none ∧ s.cycleTicks < exact.offset + 2992) ∧
      (16 - (oneFree s).store.changeList.length < 2 ∧ ¬15625 < 2992 ∧ ¬15625 < 192) ∧
      (s.placeClaim { claim101 with turnaround := 30000 } plan0 (some plan1) = none ∧
        claimRange s.time.hExp s.cycleTicks { claim101 with turnaround := 30000 } = none) ∧
      (¬16 - s.store.changeList.length < 2 ∧ s.placeClaim claim101 plan0 (some plan1) = some place101) ∧
      (driveAddr ≠ rq.addr ∧ adminAddr ≠ rq.addr ∧ s.stations[(1 : Place)] = some dst ∧ dst.addr = driveAddr)) ∧
    s.AddressesDistinct ∧ (∀ (j : Place) e, s.stations[j] = some e → e.addr ≠ adminAddr) ∧
    ∀ i : Slot, ((fullSlots s).recordAt i).isSome = true := by
  refine ⟨by decide +kernel, distinct_of_two rfl (by decide), each_station rfl (by decide) (by decide), fun i => ?_⟩
  simp [fullSlots, State.recordAt]

/-- The owner's request at the head of the queue is one the unit takes. -/
theorem takes_of_asking {s : State} {m : MasterIndex} {e : Master} {cr : CurrentRequest} {body : QueuedBody}
    (hr : s.resetAsserted = false) (hw : s.admission.waiting = .none) (hc : e.request = some cr) :
    (asking s m e body).Takes { master := m, port := e.port, addr := e.addr, body := body } e cr where
  released := hr
  unit_free := hw
  head := rfl
  entry := by simp [asking]
  request := hc

theorem witness_RefusedAndWaitingClaimsChangeNothingElse :
    (let c := { claim101 with dest := adminAddr };
      (claiming idleCell c).Takes (claimRequest c) newOwner ⟨.claim, 0x1234#16⟩ ∧
      (claiming idleCell c).decideClaim (claimRequest c) c = .refuse .unknownDest .kindAlone) ∧
    (let s := claiming (oneFree idleCell) claim101;
      s.Takes (claimRequest claim101) newOwner ⟨.claim, 0x1234#16⟩ ∧
      s.decideClaim (claimRequest claim101) claim101 = .wait) ∧
    (claimRequest claim101).body = .claim claim101 ∧ Instr.hold ∈ [Instr.claim, .release, .hold] :=
  ⟨⟨takes_of_asking rfl rfl rfl, by decide +kernel⟩, ⟨takes_of_asking rfl rfl rfl, by decide +kernel⟩, rfl,
    by decide⟩

/-- The stations of `f` beside the drive at place 1. -/
def beside (f : Place → Station) (j : Place) : Station :=
  if j = 1 then { addr := driveAddr, port := 5, seen := false, pins := 0 } else f j

/-- A claiming cell whose station table has no free place: the drive at place 1, `f` elsewhere. -/
def crowdedTable (f : Place → Station) : State :=
  { claiming idleCell claim101 with stations := Vector.ofFn fun j => some (beside f j) }

theorem crowdedTable_raised (f : Place → Station) (d : Station) (k : Place) :
    ((crowdedTable f).stations.set 1 (some d))[k] = some (if k = 1 then d else beside f k) := by
  rw [Fin.getElem_fin, Vector.getElem_set]
  by_cases h : k = 1
  · subst h; simp
  · have : ¬(1 = k.val) := fun hk => h (Fin.ext hk.symm)
    simp [crowdedTable, h, this]

/-- An unpinned station of its own address at place `j`. -/
def stranger (seen : Bool) (j : Place) : Station :=
  { addr := 0x020000010000#48 + BitVec.ofNat 48 j, port := 0, seen := seen, pins := 0 }

theorem crowdedTable_distinct {f : Place → Station} (h : ∀ j, (f j).addr = (stranger true j).addr) :
    (crowdedTable f).AddressesDistinct := by
  have hn : ∀ j : Place, ((beside f j).addr).toNat = if j = 1 then 0x020000000005 else 0x020000010000 + j.val := by
    intro j
    unfold beside
    split
    · rfl
    · rw [h]; revert j; decide +kernel
  intro j k a b ha hb hab
  simp only [crowdedTable, Fin.getElem_fin, Vector.getElem_ofFn, Option.some.injEq] at ha hb
  have hj := hn j
  have hk := hn k
  rw [ha] at hj
  rw [hb] at hk
  rw [hab, hk] at hj
  have := j.isLt
  have := k.isLt
  split at hj <;> split at hj
  · next h1 h2 => rw [h1, h2]
  · omega
  · omega
  · exact Fin.ext (by omega)

/-- The claim of stream 101 is granted in `s`. -/
def grants (s : State) : Bool :=
  s.decideClaim (claimRequest claim101) claim101 == .grant 0 plan0 (some plan1) place101

/-- The claiming cell with the owner's entry, or none, at place 0. -/
def knowing (own : Option Station) : State :=
  { claiming idleCell claim101 with
    stations := ((Vector.replicate 256 none).set 0 own).set 1
      (some { addr := driveAddr, port := 5, seen := false, pins := 0 }) }

theorem witness_GrantEntersTheRecordAndStagesItsLegs :
    let rq := claimRequest claim101
    let own : Station := { addr := ownerAddr, port := 2, seen := true, pins := 0 }
    let dst : Station := { addr := driveAddr, port := 5, seen := false, pins := 0 }
    (∀ own' ∈ [own, { own with port := 3 }, { own with port := 3, pins := 1 }], let s := knowing (some own')
      s.resetAsserted = false ∧ s.admission.waiting = .none ∧ s.admission.queue.head? = some rq ∧
      rq.body = .claim claim101 ∧ s.masters[rq.master] = some newOwner ∧ grants s = true ∧
      s.stations[(0 : Place)] = some own' ∧ own'.addr = rq.addr ∧
      s.stations[(1 : Place)] = some dst ∧ dst.addr = claim101.dest) ∧
    (∀ own' : Station, own'.addr = ownerAddr → (knowing (some own')).AddressesDistinct) ∧
    (let w := { knowing (some own) with admission := { (knowing (some own)).admission with waiting := .takeUp } };
      w.admission.waiting = .takeUp ∧ w.admission.queue.head? = some rq ∧ grants w = true) ∧
    (grants (knowing none) = true ∧ ((knowing none).stations.set 1 (some dst))[(0 : Place)] = none) ∧
    (let f := fun j => stranger (decide (j ≠ 2)) j;
      grants (crowdedTable f) = true ∧ (crowdedTable f).AddressesDistinct ∧ ∀ k : Place, ∃ x,
        ((crowdedTable f).stations.set 1 (some { dst with pins := 1 }))[k] = some x ∧
          ((x.pins = 0 ∧ x.seen = false) ↔ k = 2) ∧ x.addr ≠ ownerAddr) ∧
    (grants (crowdedTable (stranger true)) = true ∧ (crowdedTable (stranger true)).AddressesDistinct ∧
      ∀ k : Place, ∃ x,
        ((crowdedTable (stranger true)).stations.set 1 (some { dst with pins := 1 }))[k] = some x ∧
          ¬(x.pins = 0 ∧ x.seen = false) ∧ (x.pins = 0 ↔ k ≠ 1) ∧ x.addr ≠ ownerAddr) := by
  refine ⟨by decide +kernel, fun own' h => ?_, by decide +kernel, by decide +kernel,
    ⟨by decide +kernel, crowdedTable_distinct fun _ => rfl, fun k => ⟨_, crowdedTable_raised _ _ k, ?_⟩⟩,
    by decide +kernel, crowdedTable_distinct fun _ => rfl, fun k => ⟨_, crowdedTable_raised _ _ k, ?_⟩⟩
  · exact distinct_of_two rfl (by rw [h]; decide)
  · revert k; decide +kernel
  · revert k; decide +kernel

theorem witness_GrantedWindowsKeepTheLaws :
    ((win 0 1 1 992 1008).phase < 2 ^ (win 0 1 1 992 1008).rate ∧
      (win 1 2 3 1504 992).phase < 2 ^ (win 1 2 3 1504 992).rate) ∧
    (claiming idleCell claim101).decideClaim (claimRequest claim101) claim101
        = .grant 0 plan0 (some plan1) place101 ∧
      (let c := { claim101 with mode := 1, phase := 0, offset := 20000 };
        c.mode = 1 ∧ (claiming idleCell c).decideClaim (claimRequest c) c
          = .grant 0 plan0 (some plan1) { phase := 0, offset0 := 20000, offset1 := some 24992 }) := by
  decide +kernel

theorem witness_SearchMissesNoPlace :
    (claim101.mode ≠ 1 ∧
      (let c := { claim101 with mode := 1, phase := 0, offset := 20000, turnaround := 30000 };
        c.mode = 1 ∧ (claiming idleCell c).placeClaim c plan0 (some plan1) = none ∧
          (claiming idleCell c).isCandidate plan0 c.rate c.phase c.offset = true)) ∧
    (threeClaims []).lowestCandidate (planOf 5 2992 15625) 1 1 0 = some 9856 ∧
      (threeClaims []).lowestCandidate (planOf 6 1232 15625) 2 2 20000 = none ∧
      ((threeClaims []).search (planOf 5 1520 15625) (some (planOf 2 192 7812)) 19904 1 0 0 = none ∧ 1 < 2 ^ 1 ∧
        (threeClaims []).isCandidate (planOf 5 1520 15625) 1 1 9856 = true) ∧
      (threeClaims []).search (planOf 6 1232 15625) none 0 2 2 20003
        = some { phase := 2, offset0 := 0, offset1 := none } := by decide +kernel

/-- The owner's RELEASE of stream 101 at the head of the queue of `s`. -/
def releasing (s : State) : State := asking s 0 (ownerAsks .release) (.release 101)

/-- The request that `releasing` queues. -/
def releaseRequest : Request := { master := 0, port := 2, addr := ownerAddr, body := .release 101 }

theorem witness_ReleaseFollowsItsTable :
    let byAdmin : Request := { master := 1, port := 7, addr := adminAddr, body := .release 101 }
    let waits := withAwaiting staged101 (.grant 3)
    let cancelling := asking waits 1 (adminAsks .release) (.release 101)
    let down := onPort cancelling 2 fun ps => { ps with link := .down }
    ((releasing (running .active)).Takes releaseRequest (ownerAsks .release) ⟨.release, 0x1234#16⟩ ∧
      cancelling.Takes byAdmin (adminAsks .release) ⟨.release, 0x1234#16⟩) ∧
    (releaseRequest.body = .release 101 ∧
      ((releasing (running .active)).ports[releaseRequest.port]).policy.masterCapable = true ∧
      (let s := onPort (running .active) 2 fun ps => { ps with policy := { ps.policy with masterCapable := false } };
        ¬(((releasing s).ports[releaseRequest.port]).policy.masterCapable = true ∨
          releaseRequest.port = (releasing s).straps.adm)) ∧
      ((running .active).recordAt 3 = some (stream101 .active) ∧
        (3 : Slot).val * 32 + ((running .active).slots[(3 : Slot)]).reuse.toNat = 101 ∧
        releaseRequest.port = (stream101 .active).ownerPort ∧ releaseRequest.addr = (stream101 .active).ownerAddr) ∧
      (let r := { stream101 .active with ownerAddr := adminAddr };
        (withStream r).recordAt 3 = some r ∧
        ¬((releaseRequest.port = r.ownerPort ∧ releaseRequest.addr = r.ownerAddr) ∨
          releaseRequest.port = (withStream r).straps.adm)) ∧
      (running .ending).recordAt 3 = some (stream101 .ending) ∧
      (byAdmin.port = cancelling.straps.adm ∧ cancelling.recordAt 3 = some (stream101 .pending) ∧
        (3 : Slot).val * 32 + (cancelling.slots[(3 : Slot)]).reuse.toNat = 101 ∧
        (adminAsks .release).phase = .queued ∧ (adminAsks .release).awaited = none ∧
        cancelling.masters[(stream101 .pending).owner] = some (awaiting (.grant 3)) ∧
        (awaiting (.grant 3)).awaited = some (.grant 3) ∧ (awaiting (.grant 3)).phase = .executing ∧
        cancelling.portUp (awaiting (.grant 3)).port = true ∧ down.portUp (awaiting (.grant 3)).port = false)) ∧
    ∀ (i : Slot) r, idleCell.recordAt i = some r → i.val * 32 + (idleCell.slots[i]).reuse.toNat ≠ 101 :=
  ⟨⟨takes_of_asking rfl rfl rfl, takes_of_asking rfl rfl rfl⟩, by decide +kernel, no_record rfl⟩

/-- The administrator's request at the head of the queue of `s`. -/
def adminAsking (s : State) (k : RequestKind) (body : QueuedBody) : State := asking s 1 (adminAsks k) body

/-- The request that `adminAsking` queues. -/
def adminRequest (body : QueuedBody) : Request := { master := 1, port := 7, addr := adminAddr, body := body }

theorem adminAsking_takes {s : State} (k : RequestKind) (body : QueuedBody) (hr : s.resetAsserted = false)
    (hw : s.admission.waiting = .none) :
    (adminAsking s k body).Takes (adminRequest body) (adminAsks k) ⟨k, 0x1234#16⟩ := takes_of_asking hr hw rfl

theorem witness_HoldResumeAndSetAgeActAtOnce :
    (adminAsking idleCell .hold .hold).Takes (adminRequest .hold) (adminAsks .hold) ⟨.hold, 0x1234#16⟩ ∧
      (adminAsking idleCell .resume .resume).Takes (adminRequest .resume) (adminAsks .resume) ⟨.resume, 0x1234#16⟩ ∧
      (∀ n, (adminAsking idleCell .setAge (.setAge n)).Takes (adminRequest (.setAge n)) (adminAsks .setAge)
        ⟨.setAge, 0x1234#16⟩) ∧
      (adminRequest .hold).body = .hold ∧ (adminRequest .resume).body = .resume ∧
      (adminRequest (.setAge 10)).body = .setAge 10 ∧ (9 < 10 ∧ 1000 < 1001) :=
  ⟨adminAsking_takes _ _ rfl rfl, adminAsking_takes _ _ rfl rfl, fun _ => adminAsking_takes _ _ rfl rfl, rfl, rfl,
    rfl, by decide⟩

/-- The cell, held. -/
def heldCell : State := { idleCell with admission := { idleCell.admission with held := true } }

theorem witness_SetPortPolicyWritesAllSixFieldsOrNone :
    (∀ s port share jitter missLimit late capable quota, s.resetAsserted = false → s.admission.waiting = .none →
      (adminAsking s .setPortPolicy (.setPortPolicy port share jitter missLimit late capable quota)).Takes
        (adminRequest (.setPortPolicy port share jitter missLimit late capable quota)) (adminAsks .setPortPolicy)
        ⟨.setPortPolicy, 0x1234#16⟩) ∧
    (idleCell.resetAsserted = false ∧ idleCell.admission.waiting = .none ∧ idleCell.admission.held = false) ∧
    (heldCell.resetAsserted = false ∧ heldCell.admission.waiting = .none ∧ heldCell.admission.held = true) ∧
    (7 < 8 ∧ (7 : Port).val = 7 ∧ heldCell.peakLoad 7 ≤ heldCell.cycleTicks * 48 / 64) ∧
    (let s := { running .active with admission := { idleCell.admission with held := true } };
      s.admission.held = true ∧ (5 : Port).val = 5 ∧ s.cycleTicks * 0 / 64 < s.peakLoad 5) :=
  ⟨fun _ _ _ _ _ _ _ _ hr hw => adminAsking_takes _ _ hr hw, by decide +kernel, by decide +kernel,
    by decide +kernel, by decide +kernel⟩

theorem witness_SetTimingWritesThePendingH :
    (∀ s h, s.resetAsserted = false → s.admission.waiting = .none →
      (adminAsking s .setTiming (.setTiming h)).Takes (adminRequest (.setTiming h)) (adminAsks .setTiming)
        ⟨.setTiming, 0x1234#16⟩) ∧
    (idleCell.admission.held = false ∧ heldCell.admission.held = true ∧ heldCell.resetAsserted = false ∧
      heldCell.admission.waiting = .none ∧ (4 < 5 ∧ 4 ≤ 4)) ∧
    (((List.finRange 128).filter fun i => (heldCell.recordAt i).isSome).length = 0 ∧
      heldCell.store.changeList = []) ∧
    ((List.finRange 128).filter fun i => ((running .active).recordAt i).isSome).length ≠ 0 :=
  ⟨fun _ _ hr hw => adminAsking_takes _ _ hr hw, by decide +kernel, by decide +kernel, by decide +kernel⟩

theorem witness_ClearsReachTheirRecordsAndDeferTheirAnswer :
    ((adminAsking (running .active) .clearCell .clearCell).Takes (adminRequest .clearCell) (adminAsks .clearCell)
        ⟨.clearCell, 0x1234#16⟩ ∧ (adminRequest .clearCell).body = .clearCell) ∧
    (∀ n, (adminAsking (running .active) .clearPort (.clearPort n)).Takes (adminRequest (.clearPort n))
        (adminAsks .clearPort) ⟨.clearPort, 0x1234#16⟩) ∧
    ((adminAsks .clearPort).phase = .queued ∧ (adminAsks .clearPort).awaited = none ∧
      (adminAsks .clearCell).phase = .queued ∧ (adminAsks .clearCell).awaited = none ∧ 7 < 8 ∧ (7 : Port).val = 7) ∧
    ∀ (i : Slot) r, (adminAsking (running .active) .clearCell .clearCell).recordAt i = some r → r.state = .pending →
      r.owner ≠ 1 :=
  ⟨⟨adminAsking_takes _ _ rfl rfl, rfl⟩, fun _ => adminAsking_takes _ _ rfl rfl, by decide,
    each_record (c := { reuse := 5, record := some (stream101 .active), queue0 := [], queue1 := [] }) rfl
      (by intro r h; cases h; decide)⟩

theorem witness_SettingsChangeByTheirCommandsAlone :
    ∃ t, exec (.windowEnd 5) (onPort (running .active) 5 fun ps => { ps with current := instance0 1 }) = .next t :=
  next_of_answersNext (by decide +kernel)

theorem witness_ClaimedFieldsNeverChange :
    let s := onPort (running .active) 5 fun ps => { ps with current := instance0 1 }
    exec (.windowEnd 5) s = .next (after (.windowEnd 5) s) ∧ s.recordAt 3 = some (stream101 .active) ∧
      (after (.windowEnd 5) s).recordAt 3 = some { stream101 .active with delivered := 1, remaining := some 2 } :=
  ⟨after_of_answersNext (by decide +kernel), by decide +kernel, by decide +kernel⟩

theorem witness_FlagsAndCountsOnlyAccumulate :
    let r := { stream101 .active with
      flags := ⟨true, true, true, true, true, true⟩, leg0 := { leg0 with smallestLead := some 600 }
      leg1 := some { leg1 with smallestLead := some 700 } }
    let s := onPort (withStream r) 5 fun ps => { ps with current := instance0 1 }
    exec (.windowEnd 5) s = .next (after (.windowEnd 5) s) ∧ s.recordAt 3 = some r ∧
      (after (.windowEnd 5) s).recordAt 3 = some { r with delivered := 1, remaining := some 2 } :=
  ⟨after_of_answersNext (by decide +kernel), by decide +kernel⟩

/-- The step of a cell whose first command is a window end that has been reached. -/
def stepping : State :=
  { onPort (running .active) 5 fun ps => { ps with current := instance0 1 } with pending := [.windowEnd 5] }

theorem stepping_next : ∃ t, step stepping = .next t :=
  next_of_answersNext (c := .windowEnd 5)
    (s := { stepping with pending := [] }) (by decide +kernel)

theorem witness_TimeBaseStaysSound :
    stepping.TimeBaseSound ∧ stepping.HeldInReset ∧ ∃ t, step stepping = .next t := by
  refine ⟨⟨by decide +kernel, by decide +kernel, by decide +kernel, fun h hh => ?_, by decide +kernel,
    by decide +kernel, by decide +kernel⟩, fun h => ?_, stepping_next⟩
  · have : stepping.store.pendingH = none := by decide +kernel
    rw [this] at hh
    cases hh
  · have : stepping.resetAsserted = false := by decide +kernel
    rw [this] at h
    cases h

theorem stepping_calendars : stepping.CalendarsSound := ⟨by decide +kernel, by decide +kernel⟩

theorem witness_CalendarsStaySound : stepping.CalendarsSound ∧ ∃ t, step stepping = .next t :=
  ⟨stepping_calendars, stepping_next⟩

/-- R55 as a test. -/
def lawful (cycleTicks h c : Nat) (ws : List Window) : Bool :=
  decide (ws.Pairwise fun a b => collide a b = false) && (List.range (2 ^ h)).all (fun b => loadOf ws b ≤ c)
    && ws.all (fun w => w.offset % 16 == 0 && w.length % 16 == 0 && decide (w.offset + w.length ≤ cycleTicks))
    && decide ((ws.filter Window.reserves).length ≤ 32)

theorem viewLawful_of_lawful {cycleTicks h c : Nat} {ws : List Window} (hl : lawful cycleTicks h c ws = true) :
    ViewLawful cycleTicks h c ws := by
  simp only [lawful, Bool.and_eq_true, decide_eq_true_eq, List.all_eq_true, List.mem_range, beq_iff_eq] at hl
  exact ⟨hl.1.1.1, hl.1.1.2, fun w hw => ⟨(hl.1.2 w hw).1.1, (hl.1.2 w hw).1.2, (hl.1.2 w hw).2⟩, hl.2⟩

theorem witness_CalendarLawsStayKept :
    stepping.CalendarsSound ∧ stepping.TableFits ∧ stepping.ViewsLawful ∧ ∃ t, step stepping = .next t := by
  refine ⟨stepping_calendars, ⟨?_, by decide +kernel, fun h hh => ?_⟩,
    ⟨fun p => viewLawful_of_lawful ?_, fun p => viewLawful_of_lawful ?_⟩, stepping_next⟩
  · intro p w hw i n ho _
    have : ∀ p : Port, ∀ w ∈ (stepping.ports[p]).calendar,
        w.owner = .beacon ∨ w.owner = .leg 3 .leg0 ∨ w.owner = .leg 3 .leg1 := by decide +kernel
    have h3 : (stepping.recordAt 3).any (fun r => r.state.standing) = true := by decide +kernel
    rcases this p w hw with h | h | h <;> rw [ho] at h <;> cases h <;> exact h3
  · have : stepping.store.pendingH = none := by decide +kernel
    rw [this] at hh
    cases hh
  · revert p
    decide +kernel
  · revert p
    decide +kernel

theorem stepping_masters : stepping.MastersFit := by
  refine ⟨each_master (by decide +kernel), ?_, by decide +kernel, by decide +kernel, each_master (by decide +kernel)⟩
  exact each_record (c := { reuse := 5, record := some (stream101 .active), queue0 := [], queue1 := [] }) rfl
    (by intro r h; cases h; decide +kernel)

/-- The owner in REPLY_DUE, its reply queued on port 2. -/
def replying : State :=
  { onPort stepping 2 fun ps =>
      { ps with controlQueue := [replyTo 0 ownerEntry ⟨.release, 0#16⟩ .noStream (.stream 7)] } with
    masters := stepping.masters.set 0 (some { ownerEntry with phase := .replyDue, request := some ⟨.release, 0#16⟩ }) }

theorem replying_fits : replying.MastersFit ∧ replying.RepliesFit ∧ replying.QueuesBounded := by
  refine ⟨⟨each_master (by decide +kernel), ?_, by decide +kernel, by decide +kernel, each_master (by decide +kernel)⟩,
    ⟨by decide +kernel, fun p m hm => ?_⟩, by decide +kernel, by decide +kernel, by decide +kernel, by decide +kernel⟩
  · exact each_record (c := { reuse := 5, record := some (stream101 .active), queue0 := [], queue1 := [] }) rfl
      (by intro r h; cases h; decide +kernel)
  · have hq : ∀ p : Port, ∀ m ∈ (replying.ports[p]).replyMasters, p = 2 ∧ m = 0 := by decide +kernel
    obtain ⟨rfl, rfl⟩ := hq p m hm
    exact ⟨{ ownerEntry with phase := .replyDue, request := some ⟨.release, 0#16⟩ }, by decide +kernel, rfl, rfl⟩

theorem witness_QueuesStayBounded :
    (replying.QueuesBounded ∧ replying.MastersFit ∧ replying.RepliesFit) ∧ ∃ t, step replying = .next t :=
  ⟨⟨replying_fits.2.2, replying_fits.1, replying_fits.2.1⟩,
    next_of_answersNext (c := .windowEnd 5) (s := { replying with pending := [] }) (by decide +kernel)⟩

theorem witness_HeldCountsStayRight : (stepping.MastersFit ∧ stepping.PinsFit) ∧ ∃ t, step stepping = .next t := by
  refine ⟨⟨stepping_masters, ⟨distinct_of_two rfl (by decide), ?_, ?_⟩⟩, stepping_next⟩
  · exact each_station rfl (by decide +kernel) (by decide +kernel)
  · refine each_record (c := { reuse := 5, record := some (stream101 .active), queue0 := [], queue1 := [] }) rfl
      fun r h a ha => ?_
    cases h
    rcases List.mem_pair.1 ha with rfl | rfl
    · exact ⟨0, { addr := ownerAddr, port := 2, seen := true, pins := 1 }, by decide +kernel, rfl⟩
    · exact ⟨1, { addr := driveAddr, port := 5, seen := false, pins := 1 }, by decide +kernel, rfl⟩

end Sys2Proof.Tests
end

/-! SUPPORT. Every command answers a next state and leaves the queue of waiting commands alone. Two layers: the queue
under the operations that change more than the tables (the others keep it by `Quiet`), then one lemma per command. -/

namespace Sys2Proof.Machine

/-! ### The queue of commands under the shared operations -/

section Pending

variable (s : State)

@[simp] theorem settleEgress_pending : (settleEgress s).pending = s.pending := (Quiet.settleEgress s).pending

@[simp] theorem answerMaster_pending (m : MasterIndex) (st : Status) (body : AnswerBody) :
    (answerMaster m st body s).pending = s.pending := (Quiet.answerMaster m st body s).pending

@[simp] theorem answerNow_pending (rq : ImmediateRequest) (k : RequestKind) (st : Status) (body : AnswerBody) :
    (answerNow rq k st body s).pending = s.pending := (Quiet.answerNow rq k st body s).pending

@[simp] theorem refuseAtDoor_pending (p : Port) (f : Frame) (st : Status) (body : AnswerBody) :
    (refuseAtDoor p f st body s).pending = s.pending := (Quiet.refuseAtDoor p f st body s).pending

@[simp] theorem leaveQueue_pending : (leaveQueue s).pending = s.pending := rfl

@[simp] theorem deferToSwitch_pending (m : MasterIndex) (a : Awaited) :
    (deferToSwitch m a s).pending = s.pending := rfl

@[simp] theorem acceptRequest_pending (m : MasterIndex) (p : Port) (f : Frame) (k : RequestKind) (b : QueuedBody) :
    (acceptRequest m p f k b s).pending = s.pending := rfl

theorem overPorts_pending {f : Port → State → State} (h : ∀ p s, (f p s).pending = s.pending) :
    (overPorts f s).pending = s.pending := foldl_keeps State.pending _ (fun s p => h p s) _ s

/-! ### The queue of commands under what the commands do -/

@[simp] theorem startReady_pending : s.startReady.pending = s.pending := by
  unfold State.startReady; split <;> rfl

theorem stepLinks_pending (lines : Vector PhyLines 8) : (stepLinks lines s).pending = s.pending :=
  overPorts_pending s fun _ _ => rfl

theorem sampleLinks_pending (lines : Vector PhyLines 8) : (sampleLinks lines s).pending = s.pending :=
  (Quiet.overPorts _ (fun p t => Quiet.linkReport s.ports p t) _).pending.trans (stepLinks_pending _ lines)

theorem calendarSwitch_pending : (calendarSwitch s).pending = s.pending := by
  unfold calendarSwitch
  exact overPorts_pending s fun _ _ => rfl

theorem takeSwitch_pending : (takeSwitch s).pending = s.pending := by
  have heads := Quiet.overPorts _ (fun p t => Quiet.testHeads p t) (calendarSwitch s)
  have installed := heads.trans (Quiet.foldl _ (fun t i => Quiet.installRecord i t) s.installingSlots _)
  have freed := installed.trans (Quiet.foldl _ (fun t i => Quiet.freeEnding i t) s.endingSlots _)
  unfold takeSwitch
  exact ((freed.trans (Quiet.foldl _ (fun t m => Quiet.answerDeferred m t) _ _)).pending).trans
    (calendarSwitch_pending s)

/-- Stated for any state, so that the sweep's walk over 256 places stays folded where this is used. -/
theorem withAgeing_pending (a : Ageing) : { s with ageing := a }.pending = s.pending := rfl

theorem sweepTable_pending : (sweepTable s).pending = s.pending := by
  unfold sweepTable
  rw [withAgeing_pending]
  exact (Quiet.overPlaces _ (fun _ _ => Quiet.putStation ..) s).pending

theorem takeClaim_pending (rq : Request) (c : ClaimFields) : (takeClaim rq c s).pending = s.pending := by
  fun_cases takeClaim rq c s
  case case3 i l0 ret place _ => exact (Quiet.grantClaim rq c i l0 ret place (leaveQueue s)).pending
  all_goals simp

theorem releaseRecord_pending (m : MasterIndex) (n : Nat) (i : Slot) (r : Record) :
    (releaseRecord m n i r s).pending = s.pending := by
  have ended := ((Quiet.endRecord i .released s).trans (Quiet.joinWaiters i m _)).pending
  unfold releaseRecord
  cases r.state with
  | pending => exact (Quiet.cancelRecord i .released s).pending
  | active => exact ended
  | dormant => exact ended
  | suspended => exact ended
  | ending => exact (Quiet.joinWaiters i m s).pending

theorem takeRelease_pending (rq : Request) (n : Nat) : (takeRelease rq n s).pending = s.pending := by
  fun_cases takeRelease rq n s
  case case5 => exact releaseRecord_pending ..
  all_goals simp

theorem takeQueued_pending (p : Port) (f : Frame) (k : RequestKind) (b : QueuedBody) :
    (takeQueued p f k b s).pending = s.pending := by
  fun_cases takeQueued p f k b s <;> simp

theorem takeRequest_pending (p : Port) (f : Frame) : (takeRequest p f s).pending = s.pending := by
  fun_cases takeRequest p f s
  case case6 => exact takeQueued_pending ..
  all_goals simp

theorem takeControl_pending (p : Port) (f : Frame) : (takeControl p f s).pending = s.pending := by
  unfold takeControl
  split
  · rfl
  · exact takeRequest_pending ..

theorem takeFrame_pending (p : Port) (f : Frame) : (takeFrame p f s).pending = s.pending := by
  have learned := Quiet.learn p (sourceOf f) s
  unfold takeFrame
  cases s.classify f with
  | error => rfl
  | control => exact (takeControl_pending _ p f).trans learned.pending
  | motion => exact (Quiet.takeMotion p f s).pending
  | openFrame => exact (learned.trans (Quiet.forward p f _)).pending

theorem answerQuery_pending (rq : ImmediateRequest) (n : Nat) (clear : EventFlags) (part : Nat) :
    (answerQuery rq n clear part s).pending = s.pending := by
  fun_cases answerQuery rq n clear part s
  case case5 body cleared =>
    have kept : cleared.pending = s.pending := by unfold cleared; split <;> rfl
    exact (answerNow_pending ..).trans kept
  all_goals simp

theorem answerReadCalendar_pending (rq : ImmediateRequest) (port first : Nat) :
    (answerReadCalendar rq port first s).pending = s.pending := by
  fun_cases answerReadCalendar rq port first s <;> simp

theorem answerReadPort_pending (rq : ImmediateRequest) (port : Nat) (clear : Bool) :
    (answerReadPort rq port clear s).pending = s.pending := by
  fun_cases answerReadPort rq port clear s
  case case3 => cases clear <;> simp
  all_goals simp

theorem setHeld_pending (m : MasterIndex) (held : Bool) : (setHeld m held s).pending = s.pending := by
  simp [setHeld]

theorem takeSetPortPolicy_pending (m : MasterIndex) (port share jitter missLimit late : Nat) (masterCapable : Bool)
    (quota : Nat) :
    (takeSetPortPolicy m port share jitter missLimit late masterCapable quota s).pending = s.pending := by
  fun_cases takeSetPortPolicy m port share jitter missLimit late masterCapable quota s <;> simp +zetaDelta [writePolicy]

theorem takeSetTiming_pending (m : MasterIndex) (h : Nat) : (takeSetTiming m h s).pending = s.pending := by
  fun_cases takeSetTiming m h s <;> simp +zetaDelta

theorem takeSetAge_pending (m : MasterIndex) (seconds : Nat) : (takeSetAge m seconds s).pending = s.pending := by
  fun_cases takeSetAge m seconds s <;> simp +zetaDelta

theorem clearRecords_pending (m : MasterIndex) (target : Option Port) (why : EndReason) (f : Record → Bool) :
    (clearRecords m target why f s).pending = s.pending := by
  unfold clearRecords
  exact (deferToSwitch_pending ..).trans (Quiet.endAll f why (leaveQueue s)).pending

theorem takeClearPort_pending (m : MasterIndex) (port : Nat) : (takeClearPort m port s).pending = s.pending := by
  unfold takeClearPort
  split
  · simp
  · exact clearRecords_pending ..

end Pending

/-! ### Every command completes -/

/-- The outcome is a next state whose queue of commands is that of `s`. -/
def Completes (s : State) (o : Host.Outcome State Fault Refusal) : Prop := ∃ t, o = .next t ∧ t.pending = s.pending

namespace Completes

/-- A command that has no effect. -/
theorem unchanged (s : State) : Completes s (.next s) := ⟨s, rfl, rfl⟩

/-- A command that has an effect, after which the schedulers apply their choice again. -/
theorem settled {s t : State} (h : t.pending = s.pending) : Completes s (.next (settleEgress t)) :=
  ⟨settleEgress t, rfl, (settleEgress_pending t).trans h⟩

/-- A command of the device's own that takes effect when its event has fallen due and RESET is negated. -/
theorem whenDue {s t : State} (c : Prop) [Decidable c] (h : t.pending = s.pending) :
    Completes s (if s.resetAsserted then .next s else if c then .next (settleEgress t) else .next s) := by
  split
  · exact unchanged s
  · split
    · exact settled h
    · exact unchanged s

variable (s : State)

/-! Reset and the time base -/

theorem resetAsserted : Completes s (execResetAsserted s) := ⟨_, rfl, overPorts_pending s fun _ _ => rfl⟩

theorem resetReleased (straps : Straps) : Completes s (execResetReleased straps s) := ⟨_, rfl, rfl⟩

theorem baseCycleStart (lines : Vector PhyLines 8) : Completes s (execBaseCycleStart lines s) :=
  whenDue _ ((sampleLinks_pending _ lines).trans (startReady_pending s))

theorem endOfSettlePeriod : Completes s (execEndOfSettlePeriod s) :=
  whenDue _ ((takeSwitch_pending _).trans (startReady_pending s))

theorem hypercycleBoundary : Completes s (execHypercycleBoundary s) :=
  whenDue _ ((takeSwitch_pending _).trans (startReady_pending s))

theorem sweep : Completes s (execSweep s) := whenDue _ (sweepTable_pending s)

/-! Windows and frames -/

theorem windowOpening (p : Port) (o : WindowOwner) : Completes s (execWindowOpening p o s) := by
  fun_cases execWindowOpening p o s
  case case2 => exact settled (Quiet.openWindow ..).pending
  all_goals exact unchanged s

theorem windowEnd (p : Port) : Completes s (execWindowEnd p s) := whenDue _ (Quiet.endInstance p s).pending

theorem frameReceived (p : Port) (f : Frame) : Completes s (execFrameReceived p f s) :=
  whenDue _ (takeFrame_pending s p f)

theorem frameReady (i : Slot) (n : LegNo) : Completes s (execFrameReady i n s) :=
  whenDue _ (Quiet.becomeReady i n s).pending

theorem frameTransmitEnd (p : Port) : Completes s (execFrameTransmitEnd p s) :=
  whenDue _ (Quiet.endTransmission p s).pending

/-! Immediate requests -/

theorem query : Completes s (execQuery s) := by
  fun_cases execQuery s
  case case2 => exact settled (answerQuery_pending ..)
  all_goals exact unchanged s

theorem readCalendar : Completes s (execReadCalendar s) := by
  fun_cases execReadCalendar s
  case case2 => exact settled (answerReadCalendar_pending ..)
  all_goals exact unchanged s

theorem readPort : Completes s (execReadPort s) := by
  fun_cases execReadPort s
  case case2 => exact settled (answerReadPort_pending ..)
  all_goals exact unchanged s

/-! Queued requests -/

theorem claim : Completes s (execClaim s) := by
  fun_cases execClaim s
  case case1 => exact settled (takeClaim_pending ..)
  all_goals exact unchanged s

theorem takeUpWaitingClaim : Completes s (execTakeUpWaitingClaim s) := by
  fun_cases execTakeUpWaitingClaim s
  case case2 => exact settled (takeClaim_pending ..)
  all_goals exact unchanged s

theorem release : Completes s (execRelease s) := by
  fun_cases execRelease s
  case case1 => exact settled (takeRelease_pending ..)
  all_goals exact unchanged s

theorem hold : Completes s (execHold s) := by
  fun_cases execHold s
  case case1 => exact settled (setHeld_pending ..)
  all_goals exact unchanged s

theorem resume : Completes s (execResume s) := by
  fun_cases execResume s
  case case1 => exact settled (setHeld_pending ..)
  all_goals exact unchanged s

theorem setPortPolicy : Completes s (execSetPortPolicy s) := by
  fun_cases execSetPortPolicy s
  case case1 => exact settled (takeSetPortPolicy_pending ..)
  all_goals exact unchanged s

theorem setTiming : Completes s (execSetTiming s) := by
  fun_cases execSetTiming s
  case case1 => exact settled (takeSetTiming_pending ..)
  all_goals exact unchanged s

theorem setAge : Completes s (execSetAge s) := by
  fun_cases execSetAge s
  case case1 => exact settled (takeSetAge_pending ..)
  all_goals exact unchanged s

theorem clearPort : Completes s (execClearPort s) := by
  fun_cases execClearPort s
  case case1 => exact settled (takeClearPort_pending ..)
  all_goals exact unchanged s

theorem clearCell : Completes s (execClearCell s) := by
  fun_cases execClearCell s
  case case1 => exact settled (clearRecords_pending ..)
  all_goals exact unchanged s

end Completes

/-- Settles O2, by cases on the command: each arm of the dispatch is one meaning, and each meaning completes. -/
theorem everyCommandCompletes : Obligations.EveryCommandCompletes := fun c s =>
  match c with
  | .resetAsserted => Completes.resetAsserted s
  | .resetReleased straps => Completes.resetReleased s straps
  | .baseCycleStart lines => Completes.baseCycleStart s lines
  | .endOfSettlePeriod => Completes.endOfSettlePeriod s
  | .hypercycleBoundary => Completes.hypercycleBoundary s
  | .sweep => Completes.sweep s
  | .windowOpening port owner => Completes.windowOpening s port owner
  | .windowEnd port => Completes.windowEnd s port
  | .frameReceived port frame => Completes.frameReceived s port frame
  | .query => Completes.query s
  | .readCalendar => Completes.readCalendar s
  | .readPort => Completes.readPort s
  | .claim => Completes.claim s
  | .takeUpWaitingClaim => Completes.takeUpWaitingClaim s
  | .release => Completes.release s
  | .hold => Completes.hold s
  | .resume => Completes.resume s
  | .setPortPolicy => Completes.setPortPolicy s
  | .setTiming => Completes.setTiming s
  | .setAge => Completes.setAge s
  | .clearPort => Completes.clearPort s
  | .clearCell => Completes.clearCell s
  | .frameReady slot leg => Completes.frameReady s slot leg
  | .frameTransmitEnd port => Completes.frameTransmitEnd s port

end Sys2Proof.Machine

/-! SUPPORT. Reports of window ends (chapter 02): what a report does to the record of its slot, in the terms of
Safety.lean that the statements use. -/

namespace Sys2Proof.Machine

/-! ### Saturating counts, and the record of a slot -/

theorem satSucc_eq (x : BitVec 16) : satSucc x = if x = 65535#16 then 65535#16 else x + 1 := by
  unfold satSucc
  split
  · next h => exact h
  · rfl

section RecordOfSlot

variable {s : State} {i : Slot} {r : Record}

@[simp] theorem State.withRecord_recordAt (s : State) (i : Slot) (o : Option Record) :
    (s.withRecord i o).recordAt i = o := by
  simp [State.withRecord, State.recordAt]

theorem State.modRecord_eq_withRecord (hr : s.recordAt i = some r) (f : Record → Record) :
    s.modRecord i f = s.withRecord i (some (f r)) := by
  have hc : (s.slots[i]).record = some r := hr
  simp only [State.modRecord, State.modSlot, State.withRecord, hc, Option.map_some]

theorem Record.mapLeg_eq {n : LegNo} {l : Leg} (hl : r.leg n = some l) (f : Leg → Leg) :
    r.mapLeg n f =
      { r with
        leg0 := if n = .leg0 then f l else r.leg0
        leg1 := if n = .leg1 then some (f l) else r.leg1 } := by
  cases n with
  | leg0 =>
    cases hl
    rfl
  | leg1 =>
    have h1 : r.leg1 = some l := hl
    simp [Record.mapLeg, h1]

/-- A notice changes no field of the record but NOTICE_LOST (R43, R115). -/
theorem handNotice_recordAt (hr : s.recordAt i = some r) (k : NoticeKind) :
    ∃ lost, (handNotice k i s).recordAt i = some { r with flags := { r.flags with noticeLost := lost } } := by
  simp only [handNotice, hr]
  split
  · exact ⟨r.flags.noticeLost, hr⟩
  · exact ⟨true, by rw [State.modRecord_eq_withRecord hr, State.withRecord_recordAt]⟩

end RecordOfSlot

/-! ### The test for dormancy (R28) -/

section Dormancy

variable {s : State} {i : Slot} {r : Record}

/-- The record that goes DORMANT, before the owner is handed its notice (R28, R31). -/
theorem goDormant_eq (hr : s.recordAt i = some r) :
    goDormant i s = handNotice .dormant i (s.withRecord i (some
      { r with
        state := .dormant
        flags := { r.flags with dormantSeen := true }
        wake := ⟨hasReady (s.slots[i]).queue0, r.leg1.isSome && hasReady (s.slots[i]).queue1⟩ })) := by
  have hc : (s.slots[i]).record = some r := hr
  simp only [goDormant, State.modSlot, State.withRecord, hc, Option.map_some]

theorem State.allAtLimit_eq_false_iff :
    s.allAtLimit r = false ↔ ∃ l ∈ r.legs, l.misses < (s.ports[l.egress]).policy.missLimit := by
  simp [State.allAtLimit]

/-- While some leg is below its port's miss limit, the test for dormancy does nothing. -/
theorem testDormancy_below_limit (hr : s.recordAt i = some r)
    (hb : ∃ l ∈ r.legs, l.misses < (s.ports[l.egress]).policy.missLimit) : testDormancy i s = s := by
  simp [testDormancy, hr, State.allAtLimit_eq_false_iff.2 hb]

/-- Going DORMANT or not, the test leaves the legs, counts and other flags of the record. -/
theorem testDormancy_recordAt (hr : s.recordAt i = some r) :
    ∃ state wake seen lost, (testDormancy i s).recordAt i =
      some { r with
        state := state, wake := wake, flags := { r.flags with dormantSeen := seen, noticeLost := lost } } := by
  simp only [testDormancy, hr]
  split
  · rw [goDormant_eq hr]
    obtain ⟨lost, h⟩ := handNotice_recordAt (State.withRecord_recordAt s i _) .dormant
    exact ⟨_, _, _, lost, h⟩
  · exact ⟨r.state, r.wake, r.flags.dormantSeen, r.flags.noticeLost, hr⟩

end Dormancy

/-! ### Counted reports (R25, R27) -/

section Reports

variable {s : State} {i : Slot} {n : LegNo} {r : Record} {l : Leg}

/-- The report of an instance that opened live, of an ACTIVE record, is counted, and the test for dormancy follows. -/
theorem windowReport_active (hr : s.recordAt i = some r) (ha : r.state = .active) (delivered : Bool) :
    windowReport i n true delivered s =
      testDormancy i (if delivered then countDelivered i n s else countMissed i n s) := by
  simp [windowReport, hr, ha]

/-- Record `r` after one more missed window of its leg `n`, which is `l` (R27). -/
def Record.afterMiss (r : Record) (n : LegNo) (l : Leg) : Record :=
  { r with
    leg0 := if n = .leg0 then { l with misses := min (l.misses + 1) 15 } else r.leg0
    leg1 := if n = .leg1 then some { l with misses := min (l.misses + 1) 15 } else r.leg1
    missedWindows := if r.missedWindows = 65535#16 then 65535#16 else r.missedWindows + 1
    flags := { r.flags with missed := true } }

theorem Record.afterMiss_leg_self (r : Record) (n : LegNo) (l : Leg) :
    (r.afterMiss n l).leg n = some { l with misses := min (l.misses + 1) 15 } := by
  cases n <;> rfl

theorem Record.afterMiss_leg_ne (r : Record) {n k : LegNo} (l : Leg) (h : k ≠ n) :
    (r.afterMiss n l).leg k = r.leg k := by
  cases k with
  | leg0 => simp [Record.leg, Record.afterMiss, h.symm]
  | leg1 => simp [Record.leg, Record.afterMiss, h.symm]

theorem countMissed_eq (hr : s.recordAt i = some r) (hl : r.leg n = some l) :
    countMissed i n s = s.withRecord i (some (r.afterMiss n l)) := by
  simp only [countMissed, State.modRecord_eq_withRecord hr, Record.mapLeg_eq hl, satSucc_eq]
  rfl

/-- A counted report of a missed window is the count of the miss and the test for dormancy. -/
theorem windowReport_missed (hr : s.recordAt i = some r) (ha : r.state = .active) (hl : r.leg n = some l) :
    windowReport i n true false s = testDormancy i (s.withRecord i (some (r.afterMiss n l))) := by
  rw [windowReport_active hr ha, ← countMissed_eq hr hl]
  rfl

end Reports

/-- Settles O27: the report is the count of the miss and the test for dormancy, which keeps every field the first clause
speaks of, and which does nothing while some leg is below its limit. -/
theorem missedWindowIsCounted : Obligations.MissedWindowIsCounted := by
  intro s i n r l hr ha hl
  have counted : (s.withRecord i (some (r.afterMiss n l))).recordAt i = some (r.afterMiss n l) :=
    State.withRecord_recordAt ..
  refine ⟨?_, fun below => ?_⟩
  · obtain ⟨state, wake, seen, lost, h⟩ := testDormancy_recordAt counted
    rw [windowReport_missed hr ha hl]
    exact ⟨_, h, r.afterMiss_leg_self n l, fun k hk => r.afterMiss_leg_ne l hk, rfl, rfl, rfl, rfl⟩
  · rw [windowReport_missed hr ha hl]
    exact testDormancy_below_limit counted below

end Sys2Proof.Machine

/-! SUPPORT. The ingress classifiers (chapter 06): the class of a received frame, what the stream check accepts, and what
FRAME_RECEIVED does on a port that is UP or not. -/

namespace Sys2Proof.Machine

section Ingress

variable {s : State} {p : Port} {f : Frame}

/-! ### The class of a frame (R122) -/

theorem isErrorFrame_iff : isErrorFrame f = true ↔ goodFcs f = false ∨ 1522 < f.length ∨ f.length < 64 := by
  simp only [isErrorFrame, Bool.or_eq_true, Bool.not_eq_true', decide_eq_true_eq, or_assoc]

theorem isErrorFrame_eq_false_iff :
    isErrorFrame f = false ↔ goodFcs f = true ∧ 64 ≤ f.length ∧ f.length ≤ 1522 := by
  rw [← Bool.not_eq_true, isErrorFrame_iff]
  simp only [not_or, Bool.not_eq_false, not_lt]
  tauto

theorem State.classify_of_error (h : isErrorFrame f = true) : s.classify f = .error := by
  simp only [State.classify, h, if_true]

/-- The type of motion frames is not that of control frames, so the destination plays no part. -/
theorem State.classify_of_motion (h : isErrorFrame f = false) (ht : etherTypeOf f = motionType) :
    s.classify f = .motion := by
  have notControl : motionType ≠ controlType := by decide
  simp [State.classify, h, ht, notControl]

/-! ### The stream check (R126) -/

/-- Step 4: the leg found enters at the port. -/
theorem Record.ingress_of_legEntering {r : Record} {n : LegNo} (h : r.legEntering p = some n) :
    ∃ l, r.leg n = some l ∧ l.ingress = p := by
  revert h
  fun_cases Record.legEntering r p
  case case1 h0 =>
    rintro ⟨⟩
    exact ⟨r.leg0, rfl, h0⟩
  case case2 l hl h1 =>
    rintro ⟨⟩
    exact ⟨l, hl, h1⟩
  all_goals exact nofun

/-- What the stream check accepts has passed each of its steps: the stream field is the number of a record, which is
ACTIVE or DORMANT and has a leg that enters at the port. -/
theorem State.streamCheck_sound {i : Slot} {n : LegNo} (h : s.streamCheck p f = some (i, n)) :
    ∃ r l, streamFieldOf f = i.val * 32 + (s.slots[i]).reuse.toNat ∧ s.recordAt i = some r ∧
      (r.state = .active ∨ r.state = .dormant) ∧ r.leg n = some l ∧ l.ingress = p := by
  revert h
  fun_cases State.streamCheck s p f
  case case3 j hj r hr hstate =>
    intro h
    obtain ⟨m, hm, hpair⟩ := Option.map_eq_some_iff.1 h
    cases hpair
    obtain ⟨l, hl, hp⟩ := Record.ingress_of_legEntering hm
    exact ⟨r, l, (State.resolve_eq.1 hj).2.symm, hr, hstate, hl, hp⟩
  all_goals exact nofun

/-- A frame that fails the stream check is counted at its port and reaches no record (R127). -/
theorem takeMotion_of_stray (h : s.streamCheck p f = none) :
    takeMotion p f s = s.modPort p fun ps => { ps with strays := satSucc ps.strays } := by
  simp only [takeMotion, h]

/-! ### The frame at its port -/

theorem exec_frameReceived_of_not_up (h : s.portUp p = false) : exec (.frameReceived p f) s = .next s := by
  simp [exec, execFrameReceived, h]

theorem exec_frameReceived_of_up (hr : s.resetAsserted = false) (hu : s.portUp p = true) :
    exec (.frameReceived p f) s = .next (settleEgress (takeFrame p f s)) := by
  simp [exec, execFrameReceived, hr, hu]

theorem takeFrame_of_error (h : isErrorFrame f = true) :
    takeFrame p f s = s.modPort p fun ps => { ps with receiveErrors := satSucc ps.receiveErrors } := by
  simp only [takeFrame, State.classify_of_error h]

theorem takeFrame_of_motion (h : isErrorFrame f = false) (ht : etherTypeOf f = motionType) :
    takeFrame p f s = takeMotion p f s := by
  simp only [takeFrame, State.classify_of_motion h ht]

end Ingress

/-- Settles O33: whatever the stream check accepts has a leg that enters at the port, against the hypothesis; so it
accepts nothing, and the frame is a stray. -/
theorem straysAreCountedAndDiscarded : Obligations.StraysAreCountedAndDiscarded := by
  intro s p f hr hu hfcs hmin hmax ht hfails
  have stray : s.streamCheck p f = none := by
    rw [Option.eq_none_iff_forall_ne_some]
    rintro ⟨i, n⟩ accepted
    obtain ⟨r, l, hstream, hrec, hstate, hleg, hport⟩ := State.streamCheck_sound accepted
    exact hfails i r n l hstream hrec hstate hleg hport
  have fit : isErrorFrame f = false := isErrorFrame_eq_false_iff.2 ⟨hfcs, hmin, hmax⟩
  rw [exec_frameReceived_of_up hr hu, takeFrame_of_motion fit ht, takeMotion_of_stray stray]
  simp only [State.modPort, State.withPort, satSucc_eq]

/-- Settles O32: a port that is not UP hears nothing, and on an UP port the first row of R122 takes the frame. -/
theorem unfitFramesAreDiscarded : Obligations.UnfitFramesAreDiscarded := by
  refine fun s p f => ⟨exec_frameReceived_of_not_up, fun hr hu unfit => ?_⟩
  rw [exec_frameReceived_of_up hr hu, takeFrame_of_error (isErrorFrame_iff.2 unfit)]
  simp only [State.modPort, State.withPort, satSucc_eq]

end Sys2Proof.Machine

/-! SUPPORT. The link monitor (chapter 08): the kind of a sample, what a sample makes of each port's link state, and
what BASE_CYCLE_START does where the time base raises a start. -/

namespace Sys2Proof.Machine

section Sample

variable {lines : Vector PhyLines 8} {s : State}

/-! ### The kinds of a sample (R156) -/

theorem sampleKind_of_fault {l : PhyLines} (h : l.fault = true) : sampleKind l = .fault := by
  simp only [sampleKind, h, if_true]

theorem sampleKind_of_good {l : PhyLines} (hf : l.fault = false) (h : l.link = true) : sampleKind l = .good := by
  simp [sampleKind, hf, h]

theorem sampleKind_of_bad {l : PhyLines} (hf : l.fault = false) (h : l.link = false) : sampleKind l = .bad := by
  simp [sampleKind, hf, h]

/-! ### The link states under a sample (R158) -/

/-- Each port steps on its own sample; the rest of the port stays. -/
theorem stepLinks_port (lines : Vector PhyLines 8) (s : State) (p : Port) :
    (stepLinks lines s).ports[p] =
      { s.ports[p] with link := (s.ports[p]).link.next (sampleKind lines[p]) (lineSpeed lines[p]) } :=
  overPorts_each (fun q ps => { ps with link := ps.link.next (sampleKind lines[q]) (lineSpeed lines[q]) }) s p

/-- The reports of departures and arrivals that follow the step leave the link states as it made them. -/
theorem sampleLinks_link (lines : Vector PhyLines 8) (s : State) (p : Port) :
    ((sampleLinks lines s).ports[p]).link =
      (s.ports[p]).link.next (sampleKind lines[p]) (lineSpeed lines[p]) := by
  have reports : Quiet (stepLinks lines { s with lines := lines }) (sampleLinks lines s) :=
    Quiet.overPorts _ (fun q t => Quiet.linkReport s.ports q t) _
  rw [reports.link p, stepLinks_port]

/-! ### BASE_CYCLE_START where a start is raised -/

/-- Entering the next base cycle first is no matter of the ports. -/
theorem State.startReady_ports (s : State) : s.startReady.ports = s.ports := by
  unfold State.startReady; split <;> rfl

/-- A start stands raised once the chain is ready: it stood raised already, or the chain's advance raises it. -/
theorem State.startReady_startDue (h : s.time.startDue = true ∨ s.AtLastTick) :
    s.startReady.time.startDue = true := by
  rcases h with due | last
  · rw [State.startReady_of_due (.inl due), due]
  · rw [State.startReady_of_last last]
    rfl

theorem exec_baseCycleStart_of_start (hr : s.resetAsserted = false) (h : s.time.startDue = true ∨ s.AtLastTick) :
    exec (.baseCycleStart lines) s =
      .next (settleEgress (sampleLinks lines
        { s.startReady with time := { s.startReady.time with startDue := false } })) := by
  simp [exec, execBaseCycleStart, hr, State.startReady_startDue h]

/-- A raised start steps every port's link state on its sample: neither the chain's advance before the sample nor the
schedulers after it touch a link state. -/
theorem exec_baseCycleStart_links (hr : s.resetAsserted = false) (h : s.time.startDue = true ∨ s.AtLastTick) :
    ∃ t, exec (.baseCycleStart lines) s = .next t ∧
      ∀ p : Port, (t.ports[p]).link = (s.ports[p]).link.next (sampleKind lines[p]) (lineSpeed lines[p]) := by
  refine ⟨_, exec_baseCycleStart_of_start hr h, fun p => ?_⟩
  rw [(Quiet.settleEgress _).link p, sampleLinks_link, State.startReady_ports]

end Sample

/-- Settles O6: a raised start steps every link state by the link machine, whose rows for the three kinds of a sample
are those of the table. -/
theorem linkStateFollowsItsSamples : Obligations.LinkStateFollowsItsSamples := by
  intro lines s hr h
  obtain ⟨t, hexec, hlink⟩ := exec_baseCycleStart_links hr h
  refine ⟨t, hexec, fun p => ⟨fun fault => ?_, fun noFault good => ?_, fun noFault bad => ?_⟩⟩
  · rw [hlink p, sampleKind_of_fault fault]
    rfl
  · rw [hlink p, sampleKind_of_good noFault good]
    cases (s.ports[p]).link <;> rfl
  · rw [hlink p, sampleKind_of_bad noFault bad]
    cases (s.ports[p]).link <;> rfl

end Sys2Proof.Machine

/-! SUPPORT. The station table (chapter 09): the walk of the sweep, and the forwarding of open frames to the open
queues. -/

namespace Sys2Proof.Machine

/-! ### Walks that change one table -/

section Walks

/-- A fold whose steps change one table alone, read by `get` and replaced by `put`, changes that table alone. Stated for
any list, so that the walk over 256 places stays folded where this is used. -/
theorem foldl_frame {α β : Type} (get : State → β) (put : State → β → State) (put_get : ∀ t, put t (get t) = t)
    (put_put : ∀ t b c, put (put t b) c = put t c) (f : State → α → State)
    (h : ∀ t a, f t a = put t (get (f t a))) (l : List α) (s : State) :
    l.foldl f s = put s (get (l.foldl f s)) := by
  induction l generalizing s with
  | nil => exact (put_get s).symm
  | cons a l ih =>
    calc l.foldl f (f s a)
      _ = put (f s a) (get (l.foldl f (f s a))) := ih (f s a)
      _ = put (put s (get (f s a))) (get (l.foldl f (f s a))) := congrArg (put · _) (h s a)
      _ = put s (get (l.foldl f (f s a))) := put_put ..

theorem overPlaces_frame (f : Place → State → State) (h : ∀ i t, f i t = { t with stations := (f i t).stations })
    (s : State) : overPlaces f s = { s with stations := (overPlaces f s).stations } := by
  unfold overPlaces
  exact foldl_frame State.stations (fun t x => { t with stations := x }) (fun _ => rfl) (fun _ _ _ => rfl) _
    (fun t i => h i t) _ s

theorem overPorts_frame (f : Port → State → State) (h : ∀ p t, f p t = { t with ports := (f p t).ports })
    (s : State) : overPorts f s = { s with ports := (overPorts f s).ports } := by
  unfold overPorts
  exact foldl_frame State.ports (fun t x => { t with ports := x }) (fun _ => rfl) (fun _ _ _ => rfl) _
    (fun t p => h p t) _ s

end Walks

/-! ### The sweep of the table (R174) -/

section Sweep

variable {s : State}

/-- The table after a walk whose sweep count is put back to 0. -/
theorem withAgeing_stations (s : State) (a : Ageing) : { s with ageing := a }.stations = s.stations := rfl

theorem sweepTable_station (s : State) (j : Place) : (sweepTable s).stations[j] = sweepEntry s.stations[j] := by
  unfold sweepTable
  rw [withAgeing_stations, overPlaces_each]

theorem sweepTable_frame (s : State) :
    sweepTable s =
      { s with stations := (sweepTable s).stations, ageing := { s.ageing with sweepCount := 0 } } := by
  unfold sweepTable
  rw [withAgeing_stations]
  generalize hw : overPlaces (fun i s => s.putStation i (sweepEntry s.stations[i])) s = w
  have walk : w = { s with stations := w.stations } :=
    hw ▸ overPlaces_frame _ (fun _ _ => rfl) s
  rw [walk]

theorem exec_sweep_of_due (hr : s.resetAsserted = false)
    (h : sweepPeriod s.straps.cyc s.ageing.agePeriod ≤ s.ageing.sweepCount) :
    exec .sweep s = .next (settleEgress (sweepTable s)) := by
  have due : s.sweepDue = true := decide_eq_true h
  simp only [exec, execSweep, hr, due, Bool.false_eq_true, if_false, if_true]

end Sweep

/-- Settles O14: the sweep visits each place once, by the rule for one entry, and besides the table it changes the
sweep count alone. -/
theorem sweepRemovesTheUnseenUnpinned : Obligations.SweepRemovesTheUnseenUnpinned := by
  refine fun s hr due => ⟨sweepTable s, exec_sweep_of_due hr due, fun j => ?_, sweepTable_frame s⟩
  rw [sweepTable_station]
  cases s.stations[j] <;> rfl

/-! ### The open queue of a port (R150) -/

section Forwarding

variable {s : State} {p : Port} {f : Frame}

theorem PortState.takeOpen_eq (ps : PortState) (f : Frame) :
    ps.takeOpen f =
      if ps.link.speed.isSome = true ∧ ps.openQueue.length < 64 ∧
          (ps.openQueue.map List.length).sum + f.length ≤ 32768 then
        { ps with openQueue := ps.openQueue ++ [f] }
      else
        { ps with openDrops := if ps.openDrops = 65535#16 then 65535#16 else ps.openDrops + 1 } := by
  simp only [PortState.takeOpen, bytesIn, satSucc_eq]

/-! ### Flooding (R176) -/

/-- What a flood makes of port `q`: a copy is handed to it when it is UP and not the arrival port. -/
def floodPort (arrival : Port) (f : Frame) (q : Port) (ps : PortState) : PortState :=
  if q ≠ arrival ∧ ps.link.speed.isSome then ps.takeOpen f else ps

/-- Whether a port takes a copy depends on that port alone, so a flood changes each port by itself. -/
theorem flood_eq (p : Port) (f : Frame) (s : State) :
    flood p f s = overPorts (fun q s => s.modPort q (floodPort p f q)) s := by
  refine congrArg (overPorts · s) (funext₂ fun q t => ?_)
  by_cases takes : q ≠ p ∧ t.portUp q
  · have h : floodPort p f q t.ports[q] = (t.ports[q]).takeOpen f := if_pos takes
    rw [if_pos takes, handOpen, State.modPort, State.modPort, h]
  · have h : floodPort p f q t.ports[q] = t.ports[q] := if_neg takes
    rw [if_neg takes, State.modPort, h, Fin.getElem_fin, Vector.set_getElem_self]

theorem flood_port (p : Port) (f : Frame) (s : State) (q : Port) :
    (flood p f s).ports[q] = if q ≠ p ∧ s.portUp q = true then (s.ports[q]).takeOpen f else s.ports[q] := by
  rw [flood_eq, overPorts_each]
  rfl

theorem flood_frame (p : Port) (f : Frame) (s : State) : flood p f s = { s with ports := (flood p f s).ports } := by
  rw [flood_eq]
  exact overPorts_frame _ (fun _ _ => rfl) s

/-! ### The rows of the forwarding table (R176) -/

theorem forward_of_own (h : destinationOf f = s.deviceAddr) : forward p f s = s := by
  rw [forward, if_pos h]

theorem forward_of_group_or_unknown (own : destinationOf f ≠ s.deviceAddr)
    (h : isGroup (destinationOf f) = true ∨
      ∀ (j : Place) (e : Station), s.stations[j] = some e → e.addr ≠ destinationOf f) :
    forward p f s = flood p f s := by
  rw [forward, if_neg own]
  split
  · rfl
  · next notGroup => rw [State.placeOf_none.2 (h.resolve_left notGroup)]

theorem forward_of_known {j : Place} {e : Station} (own : destinationOf f ≠ s.deviceAddr)
    (single : isGroup (destinationOf f) = false) (place : s.placeOf (destinationOf f) = some j)
    (entry : s.stations[j] = some e) :
    forward p f s = if e.port = p then s else handOpen e.port f s := by
  simp only [forward, if_neg own, single, place, entry, Bool.false_eq_true, if_false]

/-! ### Open frames at their port (R122, R125) -/

theorem State.classify_of_open (h : isErrorFrame f = false) (notMotion : etherTypeOf f ≠ motionType)
    (notControl : etherTypeOf f ≠ controlType ∨ (destinationOf f ≠ s.deviceAddr ∧ destinationOf f ≠ broadcast)) :
    s.classify f = .openFrame := by
  have rowTwo : ¬(etherTypeOf f = controlType ∧ (destinationOf f = s.deviceAddr ∨ destinationOf f = broadcast)) := by
    tauto
  rw [State.classify, h, if_neg Bool.false_ne_true, if_neg rowTwo, if_neg notMotion]

theorem takeFrame_of_open (h : isErrorFrame f = false) (notMotion : etherTypeOf f ≠ motionType)
    (notControl : etherTypeOf f ≠ controlType ∨ (destinationOf f ≠ s.deviceAddr ∧ destinationOf f ≠ broadcast)) :
    takeFrame p f s = forward p f (learn p (sourceOf f) s) := by
  simp only [takeFrame, State.classify_of_open h notMotion notControl]

end Forwarding

/-- Settles O16: a frame that no other row of R122 takes is learned and forwarded, and forwarding is by cases on its
destination, each copy meeting the open queue of its port. -/
theorem openFramesAreForwardedByTheTable : Obligations.OpenFramesAreForwardedByTheTable := by
  refine ⟨fun p f s hr up fcs hmin hmax notMotion notControl => ?_, fun p f s => ?_⟩
  · rw [exec_frameReceived_of_up hr up,
      takeFrame_of_open (isErrorFrame_eq_false_iff.2 ⟨fcs, hmin, hmax⟩) notMotion notControl]
  · intro queued
    have handed : ∀ q : Port, queued q = (s.ports[q]).takeOpen f := fun q => ((s.ports[q]).takeOpen_eq f).symm
    refine ⟨forward_of_own, fun own => ⟨fun toAll => ?_, fun single j e entry addr unique => ?_⟩⟩
    · rw [forward_of_group_or_unknown own toAll]
      refine ⟨fun q => ?_, flood_frame p f s⟩
      rw [flood_port, handed]
    · have place : s.placeOf (destinationOf f) = some j :=
        State.placeOf_eq entry addr fun k e' hk he' => unique k e' hk (he'.trans addr.symm)
      rw [forward_of_known own single place entry, handed]
      rfl

end Sys2Proof.Machine

/-! SUPPORT. SET_PORT_POLICY (chapter 10): the ranges of its fields, and what it does at each of its checks. -/

namespace Sys2Proof.Machine

section PortPolicy

variable {s : State} {rq : Request} {e : Master} {cr : CurrentRequest}

/-! ### A request that the admission unit takes (R73, R96) -/

theorem leaveQueue_eq (s : State) : leaveQueue s = s.decided := rfl

/-- A decided request is answered out of the entry of its sender (R107, R119). -/
theorem State.Takes.answer_decided (h : s.Takes rq e cr) (st : Status) (body : AnswerBody) :
    answerMaster rq.master st body s.decided = s.decided.answered rq.master e cr st body :=
  answerMaster_eq (s := s.decided) h.entry h.request st body

/-- The write of a policy changes one field of one port, and the sender is answered after it (R180). -/
theorem State.Takes.answer_writePolicy (h : s.Takes rq e cr) (p : Port) (new : Policy) (st : Status)
    (body : AnswerBody) :
    answerMaster rq.master st body (writePolicy p new s.decided) =
      (s.decided.withPort p { s.ports[p] with policy := new }).answered rq.master e cr st body :=
  answerMaster_eq (s := writePolicy p new s.decided) h.entry h.request st body

/-! ### The ranges of the fields (R180, R189) -/

theorem latePolicyOf_none {code : Nat} : latePolicyOf code = none ↔ 1 < code := by
  match code with
  | 0 => simp [latePolicyOf]
  | 1 => simp [latePolicyOf]
  | n + 2 => simp [latePolicyOf]

theorem latePolicyOf_of_le {code : Nat} (h : code ≤ 1) :
    latePolicyOf code = some (if code = 0 then .hold else .drop) := by
  match code, h with
  | 0, _ => rfl
  | 1, _ => rfl

theorem policyRange_eq (port share jitter missLimit late quota : Nat) :
    policyRange port share jitter missLimit late quota =
      if 7 < port then some 0
      else if 48 < share then some 1
      else if 1008 < jitter ∨ jitter % 16 ≠ 0 then some 2
      else if missLimit = 0 ∨ 15 < missLimit then some 4
      else if 1 < late then some 5
      else if 32 < quota then some 7
      else none := by
  simp only [policyRange, latePolicyOf_none]

/-- Where no field is out of range, the late policy's code names one. -/
theorem late_le_of_policyRange_none {port share jitter missLimit late quota : Nat}
    (h : policyRange port share jitter missLimit late quota = none) : late ≤ 1 := by
  rw [policyRange_eq] at h
  split_ifs at h with _ _ _ _ noPolicy
  exact Nat.not_lt.1 noPolicy

/-! ### The checks and the effect (R180, R187) -/

section Checks

variable {m : MasterIndex} {port share jitter missLimit late quota : Nat} {capable : Bool}

theorem takeSetPortPolicy_of_not_held (h : s.admission.held = false) :
    takeSetPortPolicy m port share jitter missLimit late capable quota s =
      answerMaster m .notHeld .kindAlone s.decided := by
  simp [takeSetPortPolicy, h, leaveQueue_eq]

theorem takeSetPortPolicy_of_range {k : Nat} (held : s.admission.held = true)
    (h : policyRange port share jitter missLimit late quota = some k) :
    takeSetPortPolicy m port share jitter missLimit late capable quota s =
      answerMaster m .range (.failingField k) s.decided := by
  simp [takeSetPortPolicy, held, h, leaveQueue_eq]

/-- With the held flag set and every field in range, the new cap against the peak load decides. -/
theorem takeSetPortPolicy_of_fit {p : Port} (held : s.admission.held = true)
    (h : policyRange port share jitter missLimit late quota = none) (hp : p.val = port) :
    takeSetPortPolicy m port share jitter missLimit late capable quota s =
      if capOf s.cycleTicks share < s.peakLoad p then
        answerMaster m .inUse (.policy port (capOf s.cycleTicks share) (s.peakLoad p)) s.decided
      else
        answerMaster m .ok (.policy port (capOf s.cycleTicks share) (s.peakLoad p))
          (writePolicy p
            { share := share, jitter := jitter, missLimit := missLimit
              late := if late = 0 then .hold else .drop, masterCapable := capable, quota := quota } s.decided) := by
  subst hp
  simp [takeSetPortPolicy, held, h, portOfNat_eq, latePolicyOf_of_le (late_le_of_policyRange_none h), leaveQueue_eq]

end Checks

theorem exec_setPortPolicy_of_takes {port share jitter missLimit late quota : Nat} {capable : Bool}
    (h : s.Takes rq e cr) (body : rq.body = .setPortPolicy port share jitter missLimit late capable quota) :
    exec .setPortPolicy s =
      .next (settleEgress (takeSetPortPolicy rq.master port share jitter missLimit late capable quota s)) := by
  simp only [exec, execSetPortPolicy, h.headRequest_eq, body]

end PortPolicy

/-- Settles O48, one check after the other: the held flag, the first field out of range, and the new cap against the
peak load; past all three the policy is written as a whole before the answer. -/
theorem setPortPolicyWritesAllSixFieldsOrNone : Obligations.SetPortPolicyWritesAllSixFieldsOrNone := by
  intro s rq e cr port share jitter missLimit late capable quota takes body refused firstBad cap
  rw [exec_setPortPolicy_of_takes takes body]
  have range : policyRange port share jitter missLimit late quota = firstBad := policyRange_eq ..
  refine ⟨fun notHeld => ?_, fun held => ⟨fun k bad => ?_, fun p fits hp => ⟨fun exceeded => ?_, fun within => ?_⟩⟩⟩
  · rw [takeSetPortPolicy_of_not_held notHeld, takes.answer_decided]
  · rw [takeSetPortPolicy_of_range held (range.trans bad), takes.answer_decided]
  · have exceeded : capOf s.cycleTicks share < s.peakLoad p := exceeded
    rw [takeSetPortPolicy_of_fit held (range.trans fits) hp, if_pos exceeded, takes.answer_decided]
    rfl
  · have within : ¬capOf s.cycleTicks share < s.peakLoad p := Nat.not_lt.2 within
    rw [takeSetPortPolicy_of_fit held (range.trans fits) hp, if_neg within, takes.answer_writePolicy]
    rfl

end Sys2Proof.Machine

/-! SUPPORT. Reset and the queue of commands (chapter 01): the first step of the queue, the two ends of RESET, and the
time base in its ranges. -/

namespace Sys2Proof.Machine

/-- Settles O1: it is the first equation of `step`. -/
theorem stepRunsFrontCommand : Obligations.StepRunsFrontCommand := fun _ _ _ => rfl

/-! ### The release of RESET -/

section Reset

variable (straps : Straps) (lines : Vector PhyLines 8) (pending : List Instr)

theorem resetWith_slot (i : Slot) :
    (State.resetWith straps lines pending).slots[i] = { reuse := 0, record := none, queue0 := [], queue1 := [] } :=
  Vector.getElem_replicate i.isLt

theorem resetWith_recordAt (i : Slot) : (State.resetWith straps lines pending).recordAt i = none := by
  rw [State.recordAt, resetWith_slot]

theorem resetWith_master (m : MasterIndex) : (State.resetWith straps lines pending).masters[m] = none :=
  Vector.getElem_replicate m.isLt

theorem resetWith_port (p : Port) :
    (State.resetWith straps lines pending).ports[p] = PortState.reset straps.cyc := Vector.getElem_replicate p.isLt

theorem resetWith_station (j : Place) : (State.resetWith straps lines pending).stations[j] = none :=
  Vector.getElem_replicate j.isLt

end Reset

/-- L by the strap CYC (R2). -/
theorem baseCycleTicks_eq (cyc : Fin 4) : baseCycleTicks cyc = [15625, 31250, 62500, 125000][cyc] := by
  revert cyc; decide

/-- Settles O3: the reset value of each field is read off `State.resetWith`, table by table. -/
theorem resetReleasedGivesResetValues : Obligations.ResetReleasedGivesResetValues := by
  intro straps s
  refine ⟨State.resetWith straps s.lines s.pending, rfl, rfl, rfl, rfl, baseCycleTicks_eq straps.cyc, rfl, rfl, rfl,
    rfl,
    rfl, rfl, rfl, rfl, rfl, rfl, rfl, rfl, ?_, rfl, rfl, ?_, ?_, ?_, rfl⟩
  · exact resetWith_slot _ _ _
  · exact resetWith_master _ _ _
  · exact resetWith_port _ _ _
  · exact resetWith_station _ _ _

/-! ### The assertion of RESET -/

/-- While RESET is asserted the admission unit takes no request (R16, R95). -/
theorem State.headRequest_of_reset {s : State} (h : s.resetAsserted = true) : s.headRequest = none := by
  simp [State.headRequest, h]

/-- While RESET is asserted every command but the two of RESET finds its own test of it, or the unit's, and does
nothing. -/
theorem exec_of_reset {c : Instr} {s : State} (h : s.resetAsserted = true) (hc : c ≠ .resetAsserted)
    (hr : ∀ straps, c ≠ .resetReleased straps) : exec c s = .next s := by
  have noHead := State.headRequest_of_reset h
  cases c
  case resetAsserted => exact absurd rfl hc
  case resetReleased straps => exact absurd rfl (hr straps)
  case claim => simp only [exec, execClaim, noHead]
  case release => simp only [exec, execRelease, noHead]
  case hold => simp only [exec, execHold, noHead]
  case resume => simp only [exec, execResume, noHead]
  case setPortPolicy => simp only [exec, execSetPortPolicy, noHead]
  case setTiming => simp only [exec, execSetTiming, noHead]
  case setAge => simp only [exec, execSetAge, noHead]
  case clearPort => simp only [exec, execClearPort, noHead]
  case clearCell => simp only [exec, execClearCell, noHead]
  all_goals exact if_pos h

/-- The ports after the assertion (R3, R16, R156). -/
theorem cutPorts_port (s : State) (p : Port) :
    (overPorts (fun p s => s.modPort p PortState.cut) s).ports[p] =
      { s.ports[p] with tx := .free, current := .none, link := .down } :=
  overPorts_each (fun _ => PortState.cut) s p

theorem execResetAsserted_eq (s : State) :
    execResetAsserted s = .next
      { s with
        resetAsserted := true
        time := { s.time with startDue := false, boundaryDue := .none }
        admission := { s.admission with waiting := .none }
        inbox := []
        ports := (overPorts (fun p s => s.modPort p PortState.cut) s).ports } := by
  unfold execResetAsserted
  rw [overPorts_frame (fun p s => s.modPort p PortState.cut) (fun _ _ => rfl) s]

/-- Settles O4: the walk over the ports cuts each of them and nothing else, and then every other command tests RESET. -/
theorem assertedResetCutsAndHoldsTheDevice : Obligations.AssertedResetCutsAndHoldsTheDevice :=
  ⟨fun s => ⟨_, execResetAsserted_eq s, cutPorts_port s, rfl⟩, fun _ _ h hc hr => exec_of_reset h hc hr⟩

end Sys2Proof.Machine

/-! SUPPORT. What a command does, said once: `Acts s c u` gives the state `u` that command `c` leaves before the
schedulers apply their choice again, with what the command has found in `s`. Then what one step does, and which
commands change the settings and the time base. -/

namespace Sys2Proof.Machine

/-! ### The effect of each command -/

/-- The effect of a command other than the two of RESET, where it has one. -/
inductive Acts (s : State) : Instr → State → Prop
  | baseCycleStart (lines : Vector PhyLines 8) (due : s.startReady.time.startDue = true) :
    Acts s (.baseCycleStart lines)
      (sampleLinks lines { s.startReady with time := { s.startReady.time with startDue := false } })
  | endOfSettlePeriod (due : s.startReady.time.boundaryDue = .endOfSettle) :
    Acts s .endOfSettlePeriod (captureBeacon (takeSwitch
      { s.startReady with time := { s.startReady.time with boundaryDue := .none, b := 0, hypercycle := 0 } }))
  | hypercycleBoundary (due : s.startReady.time.boundaryDue = .hypercycle) :
    Acts s .hypercycleBoundary (captureBeacon (takeSwitch
      { s.startReady with
        time := { s.startReady.time with
          boundaryDue := .none, hypercycle := s.startReady.time.hypercycle + 1 } }))
  | sweep (due : s.sweepDue = true) : Acts s .sweep (sweepTable s)
  | windowOpening (p : Port) (o : WindowOwner) (w : Window) (opens : s.openingOf p o = some w) :
    Acts s (.windowOpening p o) (openWindow p w s)
  | windowEnd (p : Port) (ended : instanceEnded p s = true) : Acts s (.windowEnd p) (endInstance p s)
  | frameReceived (p : Port) (f : Frame) (up : s.portUp p = true) : Acts s (.frameReceived p f) (takeFrame p f s)
  | query (rq : ImmediateRequest) (n : Nat) (clear : EventFlags) (part : Nat)
    (first : s.inbox.find? isQuery = some rq) (body : rq.body = .query n clear part) :
    Acts s .query (answerQuery rq n clear part (s.withoutFirst isQuery))
  | readCalendar (rq : ImmediateRequest) (port entry : Nat) (first : s.inbox.find? isReadCalendar = some rq)
    (body : rq.body = .readCalendar port entry) :
    Acts s .readCalendar (answerReadCalendar rq port entry (s.withoutFirst isReadCalendar))
  | readPort (rq : ImmediateRequest) (port : Nat) (clear : Bool) (first : s.inbox.find? isReadPort = some rq)
    (body : rq.body = .readPort port clear) :
    Acts s .readPort (answerReadPort rq port clear (s.withoutFirst isReadPort))
  | claim (rq : Request) (c : ClaimFields) (head : s.headRequest = some rq) (body : rq.body = .claim c) :
    Acts s .claim (takeClaim rq c s)
  | takeUpWaitingClaim (rq : Request) (c : ClaimFields) (waits : s.admission.waiting = .takeUp)
    (head : s.admission.queue.head? = some rq) (body : rq.body = .claim c) :
    Acts s .takeUpWaitingClaim (takeClaim rq c { s with admission := { s.admission with waiting := .none } })
  | release (rq : Request) (n : Nat) (head : s.headRequest = some rq) (body : rq.body = .release n) :
    Acts s .release (takeRelease rq n s)
  | hold (rq : Request) (head : s.headRequest = some rq) (body : rq.body = .hold) :
    Acts s .hold (setHeld rq.master true s)
  | resume (rq : Request) (head : s.headRequest = some rq) (body : rq.body = .resume) :
    Acts s .resume (setHeld rq.master false s)
  | setPortPolicy (rq : Request) (port share jitter missLimit late : Nat) (capable : Bool) (quota : Nat)
    (head : s.headRequest = some rq)
    (body : rq.body = .setPortPolicy port share jitter missLimit late capable quota) :
    Acts s .setPortPolicy (takeSetPortPolicy rq.master port share jitter missLimit late capable quota s)
  | setTiming (rq : Request) (h : Nat) (head : s.headRequest = some rq) (body : rq.body = .setTiming h) :
    Acts s .setTiming (takeSetTiming rq.master h s)
  | setAge (rq : Request) (seconds : Nat) (head : s.headRequest = some rq) (body : rq.body = .setAge seconds) :
    Acts s .setAge (takeSetAge rq.master seconds s)
  | clearPort (rq : Request) (port : Nat) (head : s.headRequest = some rq) (body : rq.body = .clearPort port) :
    Acts s .clearPort (takeClearPort rq.master port s)
  | clearCell (rq : Request) (head : s.headRequest = some rq) (body : rq.body = .clearCell) :
    Acts s .clearCell (clearRecords rq.master none .cellCleared (fun _ => true) s)
  | frameReady (i : Slot) (n : LegNo) (due : frameDue ((s.slots[i]).queue n) s.time.now = true) :
    Acts s (.frameReady i n) (becomeReady i n s)
  | frameTransmitEnd (p : Port) (ended : transmissionEnded p s = true) :
    Acts s (.frameTransmitEnd p) (endTransmission p s)

/-- The state that a command with an answer leaves: as it was, or its effect with the schedulers' choice applied
again. -/
def Done (s : State) (c : Instr) (o : Host.Outcome State Fault Refusal) : Prop :=
  o = .next s ∨ ∃ u, Acts s c u ∧ o = .next (settleEgress u)

namespace Done

variable {s : State} {c : Instr}

theorem unchanged : Done s c (.next s) := .inl rfl

theorem settled {u : State} (h : Acts s c u) : Done s c (.next (settleEgress u)) := .inr ⟨u, h, rfl⟩

/-- A command that acts when RESET is negated and its event is due. -/
theorem whenDue {u : State} (q : Prop) [Decidable q] (h : q → Acts s c u) :
    Done s c (if s.resetAsserted then .next s else if q then .next (settleEgress u) else .next s) := by
  split
  · exact unchanged
  · split
    · next hq => exact settled (h hq)
    · exact unchanged

end Done

/-- Every command but the two of RESET does what `Acts` says, or nothing. -/
theorem exec_done (s : State) {c : Instr} (h : c ≠ .resetAsserted) (hr : ∀ straps, c ≠ .resetReleased straps) :
    Done s c (exec c s) := by
  cases c
  case resetAsserted => exact absurd rfl h
  case resetReleased straps => exact absurd rfl (hr straps)
  case baseCycleStart lines => exact Done.whenDue _ (.baseCycleStart lines)
  case endOfSettlePeriod => exact Done.whenDue _ .endOfSettlePeriod
  case hypercycleBoundary => exact Done.whenDue _ .hypercycleBoundary
  case sweep => exact Done.whenDue _ .sweep
  case windowEnd p => exact Done.whenDue _ (.windowEnd p)
  case frameReceived p f => exact Done.whenDue _ (.frameReceived p f)
  case frameReady i n => exact Done.whenDue _ (.frameReady i n)
  case frameTransmitEnd p => exact Done.whenDue _ (.frameTransmitEnd p)
  case windowOpening p o =>
    show Done s _ (execWindowOpening p o s)
    fun_cases execWindowOpening p o s
    case case2 w hw => exact .settled (.windowOpening p o w hw)
    all_goals exact .unchanged
  case query =>
    show Done s _ (execQuery s)
    fun_cases execQuery s
    case case2 rq first n clear part body => exact .settled (.query rq n clear part first body)
    all_goals exact .unchanged
  case readCalendar =>
    show Done s _ (execReadCalendar s)
    fun_cases execReadCalendar s
    case case2 rq first port entry body => exact .settled (.readCalendar rq port entry first body)
    all_goals exact .unchanged
  case readPort =>
    show Done s _ (execReadPort s)
    fun_cases execReadPort s
    case case2 rq first port clear body => exact .settled (.readPort rq port clear first body)
    all_goals exact .unchanged
  case claim =>
    show Done s _ (execClaim s)
    fun_cases execClaim s
    case case1 rq head c body => exact .settled (.claim rq c head body)
    all_goals exact .unchanged
  case takeUpWaitingClaim =>
    show Done s _ (execTakeUpWaitingClaim s)
    fun_cases execTakeUpWaitingClaim s
    case case2 waits rq head c body => exact .settled (.takeUpWaitingClaim rq c waits head body)
    all_goals exact .unchanged
  case release =>
    show Done s _ (execRelease s)
    fun_cases execRelease s
    case case1 rq head n body => exact .settled (.release rq n head body)
    all_goals exact .unchanged
  case hold =>
    show Done s _ (execHold s)
    fun_cases execHold s
    case case1 rq head body => exact .settled (.hold rq head body)
    all_goals exact .unchanged
  case resume =>
    show Done s _ (execResume s)
    fun_cases execResume s
    case case1 rq head body => exact .settled (.resume rq head body)
    all_goals exact .unchanged
  case setPortPolicy =>
    show Done s _ (execSetPortPolicy s)
    fun_cases execSetPortPolicy s
    case case1 rq head port share jitter missLimit late capable quota body =>
      exact .settled (.setPortPolicy rq port share jitter missLimit late capable quota head body)
    all_goals exact .unchanged
  case setTiming =>
    show Done s _ (execSetTiming s)
    fun_cases execSetTiming s
    case case1 rq head h body => exact .settled (.setTiming rq h head body)
    all_goals exact .unchanged
  case setAge =>
    show Done s _ (execSetAge s)
    fun_cases execSetAge s
    case case1 rq head seconds body => exact .settled (.setAge rq seconds head body)
    all_goals exact .unchanged
  case clearPort =>
    show Done s _ (execClearPort s)
    fun_cases execClearPort s
    case case1 rq head port body => exact .settled (.clearPort rq port head body)
    all_goals exact .unchanged
  case clearCell =>
    show Done s _ (execClearCell s)
    fun_cases execClearCell s
    case case1 rq head body => exact .settled (.clearCell rq head body)
    all_goals exact .unchanged

/-- What a command can do, in one lemma. -/
theorem exec_cases {c : Instr} {s t : State} (h : exec c s = .next t) :
    t = s ∨ (s.resetAsserted = false ∧ ∃ u, Acts s c u ∧ t = settleEgress u) ∨
      (c = .resetAsserted ∧ execResetAsserted s = .next t) ∨
      ∃ straps, c = .resetReleased straps ∧ t = State.resetWith straps s.lines s.pending := by
  by_cases asserted : c = .resetAsserted
  · subst asserted
    exact .inr (.inr (.inl ⟨rfl, h⟩))
  by_cases released : ∃ straps, c = .resetReleased straps
  · obtain ⟨straps, rfl⟩ := released
    cases h
    exact .inr (.inr (.inr ⟨straps, rfl, rfl⟩))
  have notReleased : ∀ straps, c ≠ .resetReleased straps := fun straps e => released ⟨straps, e⟩
  cases reset : s.resetAsserted with
  | true =>
    rw [exec_of_reset reset asserted notReleased] at h
    cases h
    exact .inl rfl
  | false =>
    rcases exec_done s asserted notReleased with same | ⟨u, acts, hu⟩
    · rw [same] at h
      cases h
      exact .inl rfl
    · rw [hu] at h
      exact .inr (.inl ⟨rfl, u, acts, (Host.Outcome.next.inj h).symm⟩)

/-! ### One step -/

/-- `s` with the queue of commands replaced: no other part of the state knows of it. -/
def State.withPending (s : State) (l : List Instr) : State := { s with pending := l }

/-- A step is a command, from the queue or of the device itself, or the passing of a tick with RESET negated. -/
theorem step_cases {s t : State} (h : step s = .next t) :
    t = s ∨ (∃ c l, exec c (s.withPending l) = .next t) ∨
      (s.resetAsserted = false ∧ s.dueEvent = none ∧ t = tickPasses s) := by
  unfold step at h
  split at h
  · next c rest _ => exact .inr (.inl ⟨c, rest, h⟩)
  · next empty =>
    unfold idleStep at h
    split at h
    · cases h
      exact .inl rfl
    · next released =>
      split at h
      · next c _ =>
        have same : s.withPending [] = s := by rw [← empty]; rfl
        exact .inr (.inl ⟨c, [], same.symm ▸ h⟩)
      · next idle => exact .inr (.inr ⟨by simpa using released, idle, (Host.Outcome.next.inj h).symm⟩)

end Sys2Proof.Machine

/-! SUPPORT. The settings of the device and its time base: `SameSettings s t` says what most commands leave alone, and
the few commands that change a setting are each followed to the one setting they change. -/

namespace Sys2Proof.Machine

/-- Everything that has a command of its own to change it is the same: straps, lines, time base, held flag, age period,
generation, pending H, links and policies. -/
structure SameSettings (s t : State) : Prop where
  resetAsserted : t.resetAsserted = s.resetAsserted
  straps : t.straps = s.straps
  lines : t.lines = s.lines
  time : t.time = s.time
  held : t.admission.held = s.admission.held
  agePeriod : t.ageing.agePeriod = s.ageing.agePeriod
  generation : t.store.generation = s.store.generation
  pendingH : t.store.pendingH = s.store.pendingH
  link : ∀ q : Port, (t.ports[q]).link = (s.ports[q]).link
  policy : ∀ q : Port, (t.ports[q]).policy = (s.ports[q]).policy

theorem Quiet.settings {s t : State} (h : Quiet s t) : SameSettings s t :=
  ⟨h.resetAsserted, h.straps, h.lines, h.time, congrArg _ h.admission, congrArg _ h.ageing, h.generation, h.pendingH,
    h.link, h.policy⟩

namespace SameSettings

theorem refl (s : State) : SameSettings s s := (Quiet.refl s).settings

theorem trans {s t u : State} (h : SameSettings s t) (k : SameSettings t u) : SameSettings s u where
  resetAsserted := k.resetAsserted.trans h.resetAsserted
  straps := k.straps.trans h.straps
  lines := k.lines.trans h.lines
  time := k.time.trans h.time
  held := k.held.trans h.held
  agePeriod := k.agePeriod.trans h.agePeriod
  generation := k.generation.trans h.generation
  pendingH := k.pendingH.trans h.pendingH
  link := fun q => (k.link q).trans (h.link q)
  policy := fun q => (k.policy q).trans (h.policy q)

/-- The queue of requests, the waiting claim, the lists of requests in hand and the sweep count are no settings. -/
theorem lists (s : State) (queue claimWaits inbox switchAnswers freeIndex sweepCount) :
    SameSettings s
      { s with
        admission := { s.admission with queue := queue, waiting := claimWaits }
        inbox := inbox, switchAnswers := switchAnswers, freeIndex := freeIndex
        ageing := { s.ageing with sweepCount := sweepCount } } :=
  ⟨rfl, rfl, rfl, rfl, rfl, rfl, rfl, rfl, fun _ => rfl, fun _ => rfl⟩

theorem leaveQueue (s : State) : SameSettings s (leaveQueue s) := lists s ..

/-! ### Commands that change no setting -/

theorem takeQueued (p : Port) (f : Frame) (k : RequestKind) (b : QueuedBody) (s : State) :
    SameSettings s (takeQueued p f k b s) := by
  have accepted : ∀ (m : MasterIndex) (t : State), SameSettings t (acceptRequest m p f k b t) := fun m t =>
    (Quiet.modMaster t m _).settings.trans (lists ..)
  fun_cases Machine.takeQueued p f k b s
  case case1 => exact refl s
  case case2 => exact accepted _ s
  case case3 => exact (Quiet.refuseAtDoor ..).settings
  case case4 => exact (Quiet.refuseAtDoor ..).settings
  case case5 => exact (Quiet.putMaster s _ _).settings.trans (accepted ..)

theorem takeControl (p : Port) (f : Frame) (s : State) : SameSettings s (takeControl p f s) := by
  unfold Machine.takeControl
  split
  · exact refl s
  · fun_cases takeRequest p f s
    case case5 => exact lists s ..
    case case6 => exact takeQueued ..
    all_goals exact (Quiet.refuseAtDoor ..).settings

theorem takeFrame (p : Port) (f : Frame) (s : State) : SameSettings s (takeFrame p f s) := by
  have learned := (Quiet.learn p (sourceOf f) s).settings
  unfold Machine.takeFrame
  cases s.classify f with
  | error => exact (Quiet.modPort s p _ rfl rfl).settings
  | control => exact learned.trans (takeControl ..)
  | motion => exact (Quiet.takeMotion ..).settings
  | openFrame => exact learned.trans (Quiet.forward ..).settings

theorem answerQuery (rq : ImmediateRequest) (n : Nat) (clear : EventFlags) (part : Nat) (s : State) :
    SameSettings s (answerQuery rq n clear part s) := by
  fun_cases Machine.answerQuery rq n clear part s
  case case1 => exact refl s
  case case2 => exact (Quiet.answerNow ..).settings
  case case3 => exact refl s
  case case4 => exact (Quiet.answerNow ..).settings
  case case5 i _ r _ _ body cleared =>
    have flags : SameSettings s cleared := by
      dsimp only [cleared]
      split
      · exact (Quiet.modRecord s _ _).settings
      · exact refl s
    exact (flags.trans (lists cleared cleared.admission.queue cleared.admission.waiting cleared.inbox
      cleared.switchAnswers (s.freeIndex + 3) cleared.ageing.sweepCount)).trans (Quiet.answerNow ..).settings

theorem answerReadCalendar (rq : ImmediateRequest) (port first : Nat) (s : State) :
    SameSettings s (answerReadCalendar rq port first s) := by
  fun_cases Machine.answerReadCalendar rq port first s
  case case1 => exact refl s
  all_goals exact (Quiet.answerNow ..).settings

theorem answerReadPort (rq : ImmediateRequest) (port : Nat) (clear : Bool) (s : State) :
    SameSettings s (answerReadPort rq port clear s) := by
  fun_cases Machine.answerReadPort rq port clear s
  case case1 => exact refl s
  case case2 => exact (Quiet.answerNow ..).settings
  case case3 =>
    refine SameSettings.trans ?_ (Quiet.answerNow ..).settings
    split
    · exact (Quiet.modPort s _ _ rfl rfl).settings
    · exact refl s

theorem takeClaim (rq : Request) (c : ClaimFields) (s : State) : SameSettings s (takeClaim rq c s) := by
  fun_cases Machine.takeClaim rq c s
  case case1 => exact (leaveQueue s).trans (Quiet.answerMaster ..).settings
  case case2 => exact lists s ..
  case case3 => exact (leaveQueue s).trans (Quiet.grantClaim ..).settings

theorem deferToSwitch (m : MasterIndex) (a : Awaited) (s : State) : SameSettings s (deferToSwitch m a s) :=
  (lists s ..).trans (Quiet.deferMaster m a _).settings

theorem releaseRecord (m : MasterIndex) (n : Nat) (i : Slot) (r : Record) (s : State) :
    SameSettings s (releaseRecord m n i r s) := by
  have ended := ((Quiet.endRecord i .released s).trans (Quiet.joinWaiters i m _)).settings
  unfold Machine.releaseRecord
  cases r.state with
  | pending => exact (Quiet.cancelRecord ..).settings.trans (deferToSwitch ..)
  | active => exact ended
  | dormant => exact ended
  | suspended => exact ended
  | ending => exact (Quiet.joinWaiters ..).settings

theorem takeRelease (rq : Request) (n : Nat) (s : State) : SameSettings s (takeRelease rq n s) := by
  fun_cases Machine.takeRelease rq n s
  case case3 => exact refl s
  case case5 => exact (leaveQueue s).trans (releaseRecord ..)
  all_goals exact (leaveQueue s).trans (Quiet.answerMaster ..).settings

theorem clearRecords (m : MasterIndex) (target : Option Port) (why : EndReason) (f : Record → Bool) (s : State) :
    SameSettings s (clearRecords m target why f s) :=
  ((leaveQueue s).trans (Quiet.endAll ..).settings).trans (deferToSwitch ..)

theorem takeClearPort (m : MasterIndex) (port : Nat) (s : State) : SameSettings s (takeClearPort m port s) := by
  unfold Machine.takeClearPort
  split
  · exact (leaveQueue s).trans (Quiet.answerMaster ..).settings
  · exact clearRecords ..

theorem sweepTable (s : State) : SameSettings s (sweepTable s) := by
  rw [sweepTable_frame]
  exact ⟨rfl, rfl, rfl, rfl, rfl, rfl, rfl, rfl, fun _ => rfl, fun _ => rfl⟩

end SameSettings

/-! ### Commands that change one setting -/

section OneSetting

variable (s : State)

theorem setHeld_settings (m : MasterIndex) (held : Bool) :
    SameSettings { s with admission := { s.admission with held := held } } (setHeld m held s) :=
  (SameSettings.leaveQueue _).trans (Quiet.answerMaster ..).settings

/-- SET_PORT_POLICY writes one policy whose cap holds the port's peak load, or none (R180). -/
theorem takeSetPortPolicy_settings (m : MasterIndex) (port share jitter missLimit late : Nat) (capable : Bool)
    (quota : Nat) :
    SameSettings s (takeSetPortPolicy m port share jitter missLimit late capable quota s) ∨
      ∃ p new, SameSettings (writePolicy p new s)
        (takeSetPortPolicy m port share jitter missLimit late capable quota s) := by
  have refused := fun st body => (SameSettings.leaveQueue s).trans (Quiet.answerMaster m st body _).settings
  fun_cases takeSetPortPolicy m port share jitter missLimit late capable quota s
  case case4 =>
    exact .inr ⟨_, _, (SameSettings.leaveQueue (writePolicy _ _ s)).trans (Quiet.answerMaster ..).settings⟩
  case case5 => exact .inl (SameSettings.leaveQueue s)
  all_goals exact .inl (refused ..)

/-- SET_TIMING writes a pending H in its range, or none (R182). -/
theorem takeSetTiming_settings (m : MasterIndex) (h : Nat) :
    SameSettings s (takeSetTiming m h s) ∨
      (h ≤ 4 ∧ SameSettings { s with store := { s.store with pendingH := some h } } (takeSetTiming m h s)) := by
  have refused := fun st body => (SameSettings.leaveQueue s).trans (Quiet.answerMaster m st body _).settings
  fun_cases takeSetTiming m h s
  case case4 =>
    exact .inr ⟨by omega, (SameSettings.leaveQueue _).trans (SameSettings.deferToSwitch ..)⟩
  all_goals exact .inl (refused ..)

theorem takeSetAge_settings (m : MasterIndex) (seconds : Nat) :
    SameSettings s (takeSetAge m seconds s) ∨
      SameSettings { s with ageing := { agePeriod := seconds, sweepCount := 0 } } (takeSetAge m seconds s) := by
  unfold takeSetAge
  split
  · exact .inl ((SameSettings.leaveQueue s).trans (Quiet.answerMaster ..).settings)
  · exact .inr ((SameSettings.leaveQueue _).trans (Quiet.answerMaster ..).settings)

/-- The reports of a sample leave the links as they stepped and every other setting alone. -/
theorem sampleLinks_settings (lines : Vector PhyLines 8) :
    SameSettings { s with lines := lines, ports := (stepLinks lines s).ports } (sampleLinks lines s) := by
  have stepped : stepLinks lines { s with lines := lines } =
      { s with lines := lines, ports := (stepLinks lines { s with lines := lines }).ports } :=
    overPorts_frame _ (fun _ _ => rfl) _
  have ports : (stepLinks lines { s with lines := lines }).ports = (stepLinks lines s).ports := by
    refine Vector.ext fun q hq => ?_
    have left := stepLinks_port lines { s with lines := lines } ⟨q, hq⟩
    have right := stepLinks_port lines s ⟨q, hq⟩
    exact left.trans right.symm
  rw [ports] at stepped
  rw [← stepped]
  exact (Quiet.overPorts _ (fun p t => Quiet.linkReport s.ports p t) _).settings

/-- What follows the calendar switch at a boundary leaves every setting alone. -/
theorem takeSwitch_settings : SameSettings (calendarSwitch s) (takeSwitch s) := by
  have heads := Quiet.overPorts _ (fun p t => Quiet.testHeads p t) (calendarSwitch s)
  have installed := heads.trans (Quiet.foldl _ (fun t i => Quiet.installRecord i t) s.installingSlots _)
  have freed := installed.trans (Quiet.foldl _ (fun t i => Quiet.freeEnding i t) s.endingSlots _)
  exact (freed.trans (Quiet.foldl _ (fun t m => Quiet.answerDeferred m t) _ _)).settings.trans
    (SameSettings.lists ..)

theorem captureBeacon_settings : SameSettings s (captureBeacon s) :=
  ⟨rfl, rfl, rfl, rfl, rfl, rfl, rfl, rfl, fun _ => rfl, fun _ => rfl⟩

/-- The switch changes H, the generation and the pending H, and no other setting (R61). -/
theorem calendarSwitch_frame :
    calendarSwitch s = { s with
      ports := (calendarSwitch s).ports
      time := { s.time with hExp := s.switchH }
      store :=
        { changeList := []
          generation := if s.switchChanges then s.store.generation + 1 else s.store.generation
          pendingH := none }
      admission := { s.admission with waiting := (calendarSwitch s).admission.waiting } } := by
  unfold calendarSwitch
  rw [overPorts_frame (fun p t => t.modPort p _) (fun _ _ => rfl) s]

/-- Each port at the switch: its calendar is switched and G recomputed (R61, R149). -/
theorem calendarSwitch_port (p : Port) :
    (calendarSwitch s).ports[p] =
      { s.ports[p] with
        calendar := switchCalendar (s.stagedFor p) s.store.pendingH (s.ports[p]).calendar
        longestOpen := longestStretch s.cycleTicks s.switchH
          (switchCalendar (s.stagedFor p) s.store.pendingH (s.ports[p]).calendar) } :=
  overPorts_each (fun p ps =>
    { ps with
      calendar := switchCalendar (s.stagedFor p) s.store.pendingH ps.calendar
      longestOpen := longestStretch s.cycleTicks s.switchH
        (switchCalendar (s.stagedFor p) s.store.pendingH ps.calendar) }) s p

end OneSetting

end Sys2Proof.Machine

/-! SUPPORT. Which command changes which setting, and the time base in its ranges over every step (chapter 01). -/

namespace Sys2Proof.Machine

/-! ### Commands by the settings they change -/

/-- The commands that have no setting of their own. -/
def changesNoSetting : Instr → Bool
  | .resetAsserted | .resetReleased _ | .baseCycleStart _ | .endOfSettlePeriod | .hypercycleBoundary | .hold | .resume
  | .setPortPolicy | .setTiming | .setAge => false
  | _ => true

theorem Acts.settings {s u : State} {c : Instr} (h : Acts s c u) (ordinary : changesNoSetting c = true) :
    SameSettings s u := by
  cases h
  case sweep => exact SameSettings.sweepTable s
  case windowOpening => exact (Quiet.openWindow ..).settings
  case windowEnd => exact (Quiet.endInstance ..).settings
  case frameReceived => exact SameSettings.takeFrame ..
  case query => exact (SameSettings.lists s ..).trans (SameSettings.answerQuery ..)
  case readCalendar => exact (SameSettings.lists s ..).trans (SameSettings.answerReadCalendar ..)
  case readPort => exact (SameSettings.lists s ..).trans (SameSettings.answerReadPort ..)
  case claim => exact SameSettings.takeClaim ..
  case takeUpWaitingClaim => exact (SameSettings.lists s ..).trans (SameSettings.takeClaim ..)
  case release => exact SameSettings.takeRelease ..
  case clearPort => exact SameSettings.takeClearPort ..
  case clearCell => exact SameSettings.clearRecords ..
  case frameReady => exact (Quiet.becomeReady ..).settings
  case frameTransmitEnd => exact (Quiet.endTransmission ..).settings
  all_goals cases ordinary

/-- The settings that command `c` leaves, each setting with the commands that alone change it. -/
structure OwnSettings (c : Instr) (s t : State) : Prop where
  reset : c ≠ .resetAsserted → t.resetAsserted = s.resetAsserted
  straps : t.straps = s.straps
  boundary : c ≠ .endOfSettlePeriod → c ≠ .hypercycleBoundary →
    t.time.hExp = s.time.hExp ∧ t.store.generation = s.store.generation ∧ t.time.hypercycle = s.time.hypercycle
  links : (∀ lines, c ≠ .baseCycleStart lines) → c ≠ .resetAsserted →
    t.lines = s.lines ∧ ∀ p : Port, (t.ports[p]).link = (s.ports[p]).link
  policy : c ≠ .setPortPolicy → ∀ p : Port, (t.ports[p]).policy = (s.ports[p]).policy
  held : c ≠ .hold → c ≠ .resume → t.admission.held = s.admission.held
  agePeriod : c ≠ .setAge → t.ageing.agePeriod = s.ageing.agePeriod

section OwnSettings

variable {s t u : State} {c : Instr}

theorem SameSettings.own (h : SameSettings s t) : OwnSettings c s t where
  reset := fun _ => h.resetAsserted
  straps := h.straps
  boundary := fun _ _ => ⟨congrArg _ h.time, h.generation, congrArg _ h.time⟩
  links := fun _ _ => ⟨h.lines, h.link⟩
  policy := fun _ => h.policy
  held := fun _ _ => h.held
  agePeriod := fun _ => h.agePeriod

theorem OwnSettings.trans (h : OwnSettings c s t) (k : OwnSettings c t u) : OwnSettings c s u where
  reset := fun hc => (k.reset hc).trans (h.reset hc)
  straps := k.straps.trans h.straps
  boundary := fun h1 h2 =>
    have ⟨a, b, d⟩ := h.boundary h1 h2
    have ⟨a', b', d'⟩ := k.boundary h1 h2
    ⟨a'.trans a, b'.trans b, d'.trans d⟩
  links := fun h1 h2 =>
    have ⟨a, b⟩ := h.links h1 h2
    have ⟨a', b'⟩ := k.links h1 h2
    ⟨a'.trans a, fun p => (b' p).trans (b p)⟩
  policy := fun h1 p => (k.policy h1 p).trans (h.policy h1 p)
  held := fun h1 h2 => (k.held h1 h2).trans (h.held h1 h2)
  agePeriod := fun h1 => (k.agePeriod h1).trans (h.agePeriod h1)

/-- The chain's advance before a start or boundary touches the clock and the sweep count alone. -/
theorem State.startReady_frame (s : State) :
    s.startReady = { s with time := s.startReady.time, ageing := s.startReady.ageing } ∧
      s.startReady.ageing.agePeriod = s.ageing.agePeriod ∧ s.startReady.time.hExp = s.time.hExp ∧
      s.startReady.time.hypercycle = s.time.hypercycle := by
  unfold State.startReady
  split
  · exact ⟨rfl, rfl, rfl, rfl⟩
  · exact ⟨rfl, rfl, rfl, rfl⟩

/-- At a boundary H, the generation and the hypercycle number change, and no other setting. -/
theorem boundary_own (hc : c = .endOfSettlePeriod ∨ c = .hypercycleBoundary) (time : TimeBase) :
    OwnSettings c s (captureBeacon (takeSwitch { s.startReady with time := time })) := by
  obtain ⟨frame, age, -, -⟩ := s.startReady_frame
  have after := (takeSwitch_settings { s.startReady with time := time }).trans (captureBeacon_settings _)
  rw [calendarSwitch_frame] at after
  have port := calendarSwitch_port { s.startReady with time := time }
  have ports : ∀ p : Port, s.startReady.ports[p] = s.ports[p] := fun p => by rw [State.startReady_ports]
  refine ⟨fun _ => after.resetAsserted.trans (by rw [frame]), after.straps.trans (by rw [frame]),
    fun h1 h2 => absurd hc (by tauto), fun _ _ => ⟨?_, fun p => ?_⟩, fun _ p => ?_, fun _ _ => ?_, fun _ => ?_⟩
  · exact after.lines.trans (by rw [frame])
  · rw [after.link p, port p, ← ports p]
  · rw [after.policy p, port p, ← ports p]
  · exact after.held.trans (by rw [frame])
  · exact after.agePeriod.trans age

theorem sampleLinks_policy (lines : Vector PhyLines 8) (s : State) (p : Port) :
    ((sampleLinks lines s).ports[p]).policy = (s.ports[p]).policy := by
  rw [(sampleLinks_settings s lines).policy p]
  show ((stepLinks lines s).ports[p]).policy = _
  rw [stepLinks_port]

theorem Acts.own (h : Acts s c u) : OwnSettings c s u := by
  by_cases ordinary : changesNoSetting c = true
  · exact (h.settings ordinary).own
  cases h
  case baseCycleStart lines due =>
    obtain ⟨frame, age, hExp, number⟩ := s.startReady_frame
    have after := sampleLinks_settings
      { s.startReady with time := { s.startReady.time with startDue := false } } lines
    refine ⟨fun _ => after.resetAsserted.trans (by rw [frame]), after.straps.trans (by rw [frame]),
      fun _ _ => ⟨?_, after.generation.trans (by rw [frame]), ?_⟩,
      fun h _ => absurd rfl (h lines), fun _ p => ?_, fun _ _ => after.held.trans (by rw [frame]),
      fun _ => after.agePeriod.trans age⟩
    · exact (congrArg TimeBase.hExp after.time).trans hExp
    · exact (congrArg TimeBase.hypercycle after.time).trans number
    · rw [sampleLinks_policy, ← s.startReady_ports]
  case endOfSettlePeriod => exact boundary_own (.inl rfl) _
  case hypercycleBoundary => exact boundary_own (.inr rfl) _
  case hold rq _ _ =>
    have after := setHeld_settings s rq.master true
    exact ⟨fun _ => after.resetAsserted, after.straps, fun _ _ => after.own (c := .hold) |>.boundary nofun nofun,
      fun _ _ => ⟨after.lines, after.link⟩,
      fun _ => after.policy, fun h _ => absurd rfl h, fun _ => after.agePeriod⟩
  case resume rq _ _ =>
    have after := setHeld_settings s rq.master false
    exact ⟨fun _ => after.resetAsserted, after.straps, fun _ _ => after.own (c := .resume) |>.boundary nofun nofun,
      fun _ _ => ⟨after.lines, after.link⟩, fun _ => after.policy, fun _ h => absurd rfl h, fun _ => after.agePeriod⟩
  case setPortPolicy rq port share jitter missLimit late capable quota _ _ =>
    rcases takeSetPortPolicy_settings s rq.master port share jitter missLimit late capable quota with
      same | ⟨p, new, after⟩
    · exact same.own
    · refine ⟨fun _ => after.resetAsserted, after.straps, after.own (c := .setPortPolicy) |>.boundary,
        fun _ _ => ⟨after.lines, fun q => ?_⟩,
        fun h => absurd rfl h, fun _ _ => after.held, fun _ => after.agePeriod⟩
      rw [after.link q, writePolicy, State.modPort_get]
      split
      · next h => rw [h]
      · rfl
  case setTiming rq h _ _ =>
    rcases takeSetTiming_settings s rq.master h with same | ⟨-, after⟩
    · exact same.own
    · exact ⟨fun _ => after.resetAsserted, after.straps, after.own (c := .setTiming) |>.boundary,
        fun _ _ => ⟨after.lines, after.link⟩,
        fun _ => after.policy, fun _ _ => after.held, fun _ => after.agePeriod⟩
  case setAge rq seconds _ _ =>
    rcases takeSetAge_settings s rq.master seconds with same | after
    · exact same.own
    · exact ⟨fun _ => after.resetAsserted, after.straps, after.own (c := .setAge) |>.boundary,
        fun _ _ => ⟨after.lines, after.link⟩,
        fun _ => after.policy, fun _ _ => after.held, fun h => absurd rfl h⟩
  all_goals exact absurd rfl ordinary

/-- The assertion of RESET holds the links DOWN and changes no other setting. -/
theorem execResetAsserted_own (h : execResetAsserted s = .next t) : OwnSettings .resetAsserted s t := by
  rw [execResetAsserted_eq] at h
  have ht := Host.Outcome.next.inj h
  subst ht
  refine ⟨fun h => absurd rfl h, rfl, fun _ _ => ⟨rfl, rfl, rfl⟩, fun _ h => absurd rfl h, fun _ p => ?_,
    fun _ _ => rfl, fun _ => rfl⟩
  have cut := cutPorts_port s p
  show ((overPorts _ s).ports[p]).policy = _
  rw [cut]

end OwnSettings

/-- Settles O52: a command that acts changes its own settings alone, and the schedulers after it change none. -/
theorem settingsChangeByTheirCommandsAlone : Obligations.SettingsChangeByTheirCommandsAlone := by
  intro c s t h notReleased
  have own : OwnSettings c s t := by
    rcases exec_cases h with same | ⟨-, u, acts, ht⟩ | ⟨rfl, asserted⟩ | ⟨straps, rfl, -⟩
    · rw [same]
      exact (SameSettings.refl s).own
    · rw [ht]
      exact acts.own.trans (Quiet.settleEgress u).settings.own
    · exact execResetAsserted_own asserted
    · exact absurd rfl (notReleased straps)
  exact ⟨own.straps, own.boundary, own.links, own.policy, own.held, own.agePeriod⟩

/-! ### The time base in its ranges -/

section TimeBase

variable {s t u : State} {c : Instr}

theorem baseCycleTicks_pos (cyc : Fin 4) : 0 < baseCycleTicks cyc := by revert cyc; decide

theorem SameSettings.cycleTicks (h : SameSettings s t) : t.cycleTicks = s.cycleTicks := by
  rw [State.cycleTicks, State.cycleTicks, h.straps]

theorem State.TimeBaseSound.of_clock (sound : s.TimeBaseSound) (straps : t.straps = s.straps)
    (time : t.time = s.time) (pendingH : t.store.pendingH = s.store.pendingH) : t.TimeBaseSound := by
  obtain ⟨tick, exponent, index, pending, settle, settling, boundary⟩ := sound
  have ticks : t.cycleTicks = s.cycleTicks := by rw [State.cycleTicks, State.cycleTicks, straps]
  refine ⟨?_, ?_, ?_, ?_, ?_, ?_, ?_⟩
  · rwa [time, ticks]
  · rwa [time]
  · rwa [time]
  · rwa [pendingH]
  · rwa [time]
  · rwa [time]
  · rwa [time]

theorem State.TimeBaseSound.of_settings (h : SameSettings s t) (sound : s.TimeBaseSound) : t.TimeBaseSound :=
  sound.of_clock h.straps h.time h.pendingH

/-- The chain's advance at the last tick of a base cycle. -/
theorem State.TimeBaseSound.entered (sound : s.TimeBaseSound) : s.entered.TimeBaseSound := by
  obtain ⟨tick, exponent, index, pending, settle, settling, boundary⟩ := sound
  refine ⟨baseCycleTicks_pos _, exponent, ?_, pending, ?_, ?_, ?_⟩
  · show (if _ then _ else _) < 2 ^ s.time.hExp
    split
    · exact Nat.two_pow_pos _
    · next inside => exact Nat.lt_of_not_le fun past => inside (.inr past)
  · show s.time.settle - 1 ≤ _
    omega
  · show 0 < s.time.settle - 1 → (if _ then _ else _) = 0 ∧ _
    intro more
    have counting : 0 < s.time.settle := by omega
    exact ⟨if_pos (.inl counting), (settling counting).2⟩
  · show (if _ then _ else _) ≠ _ → (if _ then _ else _) = 0 ∧ s.time.settle - 1 = 0
    intro raised
    by_cases last : s.time.settle = 1
    · exact ⟨if_pos (by omega), by omega⟩
    · rw [if_neg last] at raised
      by_cases wraps : s.time.settle = 0 ∧ 2 ^ s.time.hExp ≤ s.time.b + 1
      · exact ⟨if_pos (.inr wraps.2), by omega⟩
      · exact absurd (if_neg wraps) raised

theorem State.TimeBaseSound.startReady (sound : s.TimeBaseSound) : s.startReady.TimeBaseSound := by
  by_cases last : s.AtLastTick
  · rw [State.startReady_of_last last]
    exact sound.entered
  · rw [State.startReady, if_neg fun h => last ((State.atCycleEnd_iff s).1 h)]
    exact sound

/-- The switch at a boundary, where b is 0 and the settle counter too, makes a pending H the exponent. -/
theorem State.TimeBaseSound.takeSwitch (sound : s.TimeBaseSound) (b : s.time.b = 0) (settle : s.time.settle = 0)
    (due : s.time.boundaryDue = .none) : (captureBeacon (takeSwitch s)).TimeBaseSound := by
  refine State.TimeBaseSound.of_settings ((takeSwitch_settings s).trans (captureBeacon_settings _)) ?_
  rw [calendarSwitch_frame]
  refine ⟨sound.tick_below, ?_, ?_, nofun, sound.settle_range, fun h => ?_, fun h => absurd due h⟩
  · show s.switchH ≤ 4
    unfold State.switchH
    cases pending : s.store.pendingH with
    | none => exact sound.exponent_range
    | some h => exact sound.pending_range h pending
  · show s.time.b < 2 ^ s.switchH
    rw [b]
    exact Nat.two_pow_pos _
  · exact absurd h (by rw [settle]; exact lt_irrefl 0)

theorem Acts.timeBaseSound (h : Acts s c u) (sound : s.TimeBaseSound) : u.TimeBaseSound := by
  by_cases ordinary : changesNoSetting c = true
  · exact sound.of_settings (h.settings ordinary)
  have ready := sound.startReady
  cases h
  case baseCycleStart lines _ =>
    exact State.TimeBaseSound.of_settings (sampleLinks_settings _ lines)
      ⟨ready.tick_below, ready.exponent_range, ready.index_below, ready.pending_range, ready.settle_range,
        ready.settling_start, ready.boundary_start⟩
  case endOfSettlePeriod due =>
    have atStart := ready.boundary_start (by rw [due]; nofun)
    refine State.TimeBaseSound.takeSwitch ?_ rfl atStart.2 rfl
    exact ⟨ready.tick_below, ready.exponent_range, Nat.two_pow_pos _, ready.pending_range, ready.settle_range,
      fun _ => ⟨rfl, rfl⟩, fun h => absurd rfl h⟩
  case hypercycleBoundary due =>
    have atStart := ready.boundary_start (by rw [due]; nofun)
    refine State.TimeBaseSound.takeSwitch ?_ atStart.1 atStart.2 rfl
    exact ⟨ready.tick_below, ready.exponent_range, ready.index_below, ready.pending_range, ready.settle_range,
      fun h => absurd h (by show ¬0 < s.startReady.time.settle; omega), fun h => absurd rfl h⟩
  case hold rq _ _ => 
    have after := setHeld_settings s rq.master true
    exact sound.of_clock after.straps after.time after.pendingH
  case resume rq _ _ => 
    have after := setHeld_settings s rq.master false
    exact sound.of_clock after.straps after.time after.pendingH
  case setPortPolicy rq port share jitter missLimit late capable quota _ _ =>
    rcases takeSetPortPolicy_settings s rq.master port share jitter missLimit late capable quota with
      same | ⟨p, new, after⟩
    · exact sound.of_settings same
    · exact sound.of_clock after.straps after.time after.pendingH
  case setTiming rq h _ _ =>
    rcases takeSetTiming_settings s rq.master h with same | ⟨range, after⟩
    · exact sound.of_settings same
    · refine State.TimeBaseSound.of_settings after { sound with pending_range := fun k hk => ?_ }
      cases hk
      exact range
  case setAge rq seconds _ _ =>
    rcases takeSetAge_settings s rq.master seconds with same | after
    · exact sound.of_settings same
    · exact sound.of_clock after.straps after.time after.pendingH
  all_goals exact absurd rfl ordinary

theorem resetWith_timeBaseSound (straps : Straps) (lines : Vector PhyLines 8) (pending : List Instr) :
    (State.resetWith straps lines pending).TimeBaseSound :=
  ⟨baseCycleTicks_pos _, Nat.le_of_ble_eq_true rfl, Nat.two_pow_pos 3, nofun, le_rfl, fun _ => ⟨rfl, rfl⟩,
    fun h => absurd rfl h⟩

theorem exec_timeBaseSound (h : exec c s = .next t) (sound : s.TimeBaseSound) : t.TimeBaseSound := by
  rcases exec_cases h with same | ⟨-, u, acts, ht⟩ | ⟨-, asserted⟩ | ⟨straps, -, ht⟩
  · exact same ▸ sound
  · rw [ht]
    exact State.TimeBaseSound.of_settings (Quiet.settleEgress u).settings (acts.timeBaseSound sound)
  · rw [execResetAsserted_eq] at asserted
    have ht := Host.Outcome.next.inj asserted
    subst ht
    exact { sound with boundary_start := fun h => absurd rfl h }
  · rw [ht]
    exact resetWith_timeBaseSound ..

/-- With nothing due no start and no boundary stands raised (R1, R4). -/
theorem State.clock_of_idle (idle : s.dueEvent = none) :
    s.time.startDue = false ∧ s.time.boundaryDue = .none := by
  unfold State.dueEvent at idle
  rw [List.findSome?_eq_none_iff] at idle
  have start := idle s.dueStart (by simp)
  have boundary := idle s.dueBoundary (by simp)
  simp only [id, State.dueStart, State.dueBoundary] at start boundary
  constructor
  · simpa using start
  · split at boundary
    · assumption
    · cases boundary
    · cases boundary

theorem tickPasses_timeBaseSound (idle : s.dueEvent = none) (sound : s.TimeBaseSound) :
    (tickPasses s).TimeBaseSound := by
  obtain ⟨start, boundary⟩ := State.clock_of_idle idle
  by_cases last : s.time.tick + 1 = s.cycleTicks
  · rw [tickPasses_of_last ⟨last, start, boundary⟩]
    exact State.TimeBaseSound.of_settings (Quiet.settleEgress _).settings sound.entered
  · rw [tickPasses_of_inside last]
    refine State.TimeBaseSound.of_settings (Quiet.settleEgress _).settings { sound with tick_below := ?_ }
    have := sound.tick_below
    show s.time.tick + 1 < s.cycleTicks
    omega

/-! ### The links while RESET is asserted -/

/-- A command that acts finds RESET negated and leaves it so; the assertion itself cuts every port. -/
theorem exec_heldInReset (h : exec c s = .next t) (held : s.HeldInReset) : t.HeldInReset := by
  rcases exec_cases h with same | ⟨negated, u, acts, ht⟩ | ⟨-, asserted⟩ | ⟨straps, -, ht⟩
  · exact same ▸ held
  · have acted : c ≠ .resetAsserted := by rintro rfl; cases acts
    intro h
    rw [ht, (Quiet.settleEgress u).resetAsserted, acts.own.reset acted, negated] at h
    cases h
  · rw [execResetAsserted_eq] at asserted
    have ht := Host.Outcome.next.inj asserted
    subst ht
    intro _ p
    have cut := cutPorts_port s p
    show ((overPorts _ s).ports[p]).link = _ ∧ ((overPorts _ s).ports[p]).tx = _ ∧
      ((overPorts _ s).ports[p]).current = _
    rw [cut]
    exact ⟨rfl, rfl, rfl⟩
  · rw [ht]
    exact nofun

theorem tickPasses_heldInReset (negated : s.resetAsserted = false) : (tickPasses s).HeldInReset := by
  have kept : (advanceClock s).resetAsserted = s.resetAsserted := by
    unfold advanceClock
    split <;> rfl
  intro h
  rw [tickPasses, (Quiet.settleEgress _).resetAsserted, kept, negated] at h
  cases h

end TimeBase

/-- Settles O55: a step is a command or a tick, and each keeps the ranges of the time base and the links DOWN in
reset. -/
theorem timeBaseStaysSound : Obligations.TimeBaseStaysSound := by
  intro s t h
  rcases step_cases h with same | ⟨c, l, hc⟩ | ⟨negated, idle, ht⟩
  · rw [same]
    exact ⟨id, id⟩
  · exact ⟨fun sound => exec_timeBaseSound hc (sound.of_clock rfl rfl rfl), fun held => exec_heldInReset hc held⟩
  · rw [ht]
    exact ⟨tickPasses_timeBaseSound idle, fun _ => tickPasses_heldInReset negated⟩

end Sys2Proof.Machine

/-! SUPPORT. Arithmetic of the time base (R13): the distance to the next opening, by the base cycles that lie ahead. -/

namespace Sys2Proof.Machine

/-- Base cycles from `b` on to the next one that a window of rate `k` and phase `p` occupies (R7). -/
def cyclesAhead (k p b : Nat) : Nat := (p + 2 ^ k - b % 2 ^ k) % 2 ^ k

section Distance

variable {cycleTicks k p o b t : Nat}

/-- The base cycle `q` on is occupied exactly when `q` and the cycles ahead leave one remainder. -/
theorem occupied_iff_cyclesAhead (hp : p < 2 ^ k) (q : Nat) :
    (b + q) % 2 ^ k = p ↔ q % 2 ^ k = cyclesAhead k p b := by
  have inside : b % 2 ^ k ≤ p + 2 ^ k := by
    have := Nat.mod_lt b (Nat.two_pow_pos k)
    omega
  have reached : b + (p + 2 ^ k - b % 2 ^ k) ≡ p [MOD 2 ^ k] :=
    calc b + (p + 2 ^ k - b % 2 ^ k)
      _ ≡ b % 2 ^ k + (p + 2 ^ k - b % 2 ^ k) [MOD 2 ^ k] := (Nat.mod_modEq b _).symm.add_right _
      _ = p + 2 ^ k := by omega
      _ ≡ p [MOD 2 ^ k] := Nat.add_modEq_right
  calc (b + q) % 2 ^ k = p
    _ ↔ b + q ≡ p [MOD 2 ^ k] := by rw [Nat.ModEq, Nat.mod_eq_of_lt hp]
    _ ↔ b + q ≡ b + (p + 2 ^ k - b % 2 ^ k) [MOD 2 ^ k] := ⟨fun h => h.trans reached.symm, fun h => h.trans reached⟩
    _ ↔ q % 2 ^ k = cyclesAhead k p b := ⟨fun h => h.add_left_cancel' b, fun h => Nat.ModEq.add_left b h⟩

theorem cyclesAhead_lt : cyclesAhead k p b < 2 ^ k := Nat.mod_lt _ (Nat.two_pow_pos k)

/-- The cycles to go: those ahead, or a whole period when the offset of an occupied base cycle has passed. -/
theorem distanceTo_eq (ht : t < cycleTicks) :
    t + distanceTo cycleTicks k p o b t =
      (if cyclesAhead k p b = 0 ∧ o < t then 2 ^ k else cyclesAhead k p b) * cycleTicks + o := by
  have whole : cycleTicks ≤ 2 ^ k * cycleTicks := Nat.le_mul_of_pos_left _ (Nat.two_pow_pos k)
  unfold distanceTo
  change t + (if cyclesAhead k p b = 0 then _ else cyclesAhead k p b * cycleTicks + o - t) = _
  by_cases here : cyclesAhead k p b = 0
  · by_cases passed : o < t
    · rw [if_pos here, if_neg (Nat.not_le.2 passed), if_pos ⟨here, passed⟩]
      omega
    · rw [if_pos here, if_pos (Nat.not_lt.1 passed), if_neg fun h => passed h.2, here]
      omega
  · have some : cycleTicks ≤ cyclesAhead k p b * cycleTicks := Nat.le_mul_of_pos_left _ (Nat.pos_of_ne_zero here)
    rw [if_neg here, if_neg fun h => here h.1]
    omega

end Distance

/-- Settles O31: the distance is that many whole cycles and the offset; a nearer opening would lie in an occupied base
cycle before the first one ahead, or before `t` in the present one. -/
theorem distanceReachesTheNextOpening : Obligations.DistanceReachesTheNextOpening := by
  intro cycleTicks k p o b t hp ho ht d
  have positive : 0 < cycleTicks := by omega
  have ahead : cyclesAhead k p b < 2 ^ k := cyclesAhead_lt
  have reach := distanceTo_eq (k := k) (p := p) (o := o) (b := b) ht
  generalize hn : (if cyclesAhead k p b = 0 ∧ o < t then 2 ^ k else cyclesAhead k p b) = n at reach
  have period : n % 2 ^ k = cyclesAhead k p b := by
    subst hn
    split
    · next h => rw [Nat.mod_self, h.1]
    · exact Nat.mod_eq_of_lt ahead
  have cycles : (n * cycleTicks + o) / cycleTicks = n := by
    rw [Nat.mul_comm, Nat.mul_add_div positive, Nat.div_eq_of_lt ho, Nat.add_zero]
  refine ⟨?_, ?_, ?_, fun d' hoff hphase => ?_⟩
  · rw [reach, Nat.mul_comm, Nat.mul_add_mod, Nat.mod_eq_of_lt ho]
  · rw [reach, cycles]
    exact (occupied_iff_cyclesAhead hp n).2 period
  · by_cases passed : cyclesAhead k p b = 0 ∧ o < t
    · rw [if_pos passed] at hn
      subst hn
      omega
    · rw [if_neg passed] at hn
      have : (n + 1) * cycleTicks ≤ 2 ^ k * cycleTicks := Nat.mul_le_mul_right _ (hn ▸ ahead)
      rw [Nat.add_mul] at this
      omega
  · generalize hq : (t + d') / cycleTicks = q at hphase
    have reach' : t + d' = q * cycleTicks + o := by
      rw [← hoff, ← hq, Nat.mul_comm]
      exact (Nat.div_add_mod _ _).symm
    have remainder := (occupied_iff_cyclesAhead hp q).1 hphase
    have later : n ≤ q := by
      subst hn
      split
      · next passed =>
        have started : q ≠ 0 := by
          rintro rfl
          omega
        exact Nat.le_of_dvd (Nat.pos_of_ne_zero started) (Nat.dvd_of_mod_eq_zero (remainder.trans passed.1))
      · exact remainder ▸ Nat.mod_le q _
    have : n * cycleTicks ≤ q * cycleTicks := Nat.mul_le_mul_right _ later
    show distanceTo cycleTicks k p o b t ≤ d'
    omega

end Sys2Proof.Machine

/-! SUPPORT. Records and hold queues at window ends, openings and readiness (chapters 02 and 06): notices in one lemma,
counted deliveries, dormancy, waking, and motion frames that are held and become ready. -/

namespace Sys2Proof.Machine

/-! ### Places of a table that is written over -/

section Overwrite

variable (s : State)

theorem State.withRecord_withRecord (i : Slot) (a b : Option Record) :
    (s.withRecord i a).withRecord i b = s.withRecord i b := by
  simp [State.withRecord]

theorem State.modSlot_eq_withSlot (i : Slot) (f : SlotCell → SlotCell) :
    s.modSlot i f = s.withSlot i (f s.slots[i]) := rfl

theorem State.modPort_eq_withPort (p : Port) (f : PortState → PortState) :
    s.modPort p f = s.withPort p (f s.ports[p]) :=
  rfl

theorem State.withSlot_withSlot (i : Slot) (a b : SlotCell) : (s.withSlot i a).withSlot i b = s.withSlot i b := by
  simp [State.withSlot]

@[simp] theorem State.withSlot_slot_self (i : Slot) (c : SlotCell) : (s.withSlot i c).slots[i] = c := by
  simp [State.withSlot]

@[simp] theorem State.withSlot_recordAt (i : Slot) (c : SlotCell) : (s.withSlot i c).recordAt i = c.record := by
  rw [State.recordAt, State.withSlot_slot_self]

@[simp] theorem State.withPort_port_self (p : Port) (ps : PortState) : (s.withPort p ps).ports[p] = ps := by
  simp [State.withPort]

theorem State.withSlot_modRecord (i : Slot) (c : SlotCell) (f : Record → Record) :
    (s.withSlot i c).modRecord i f = s.withSlot i { c with record := c.record.map f } := by
  rw [State.modRecord, State.modSlot_eq_withSlot, State.withSlot_slot_self, State.withSlot_withSlot]

/-- The two spellings of a replaced hold queue: by the model's operation and as the statements have it (R129). -/
theorem SlotCell.setQueue_eq (c : SlotCell) (n : LegNo) (q : List HoldEntry) : c.setQueue n q = c.withQueue n q := by
  cases n <;> rfl

/-- A recorded slot, taken apart. -/
theorem State.slot_eq_of_recordAt {s : State} {i : Slot} {r : Record} (hr : s.recordAt i = some r) :
    s.slots[i] = { s.slots[i] with record := some r } := by
  rw [← hr]
  rfl

end Overwrite

/-! ### Notices (R43, R114, R115) -/

section Notices

variable {s : State} {i : Slot} {r : Record}

/-- A change of the record with the notice of it, where the owner is told (R114). -/
theorem handNotice_withRecord_queued (k : NoticeKind) (hu : s.portUp r.ownerPort = true)
    (hn : (s.ports[r.ownerPort]).nonReplies < 8) :
    handNotice k i (s.withRecord i (some r)) = (s.withRecord i (some r)).withControl r.ownerPort
      { dest := r.ownerAddr, cls := .notice (s.streamOf i)
        message := .notice k (s.streamOf i) s.time.hypercycle r.flags none } := by
  have stream : (s.withRecord i (some r)).streamOf i = s.streamOf i := by
    simp [State.streamOf, State.withRecord]
  have handed := handNotice_queued (s.withRecord_recordAt i (some r)) k hu hn
  rw [stream] at handed
  exact handed

/-- A change of the record with NOTICE_LOST, where the owner cannot be told (R43, R115). -/
theorem handNotice_withRecord_lost (k : NoticeKind)
    (h : s.portUp r.ownerPort = false ∨ 8 ≤ (s.ports[r.ownerPort]).nonReplies) :
    handNotice k i (s.withRecord i (some r)) =
      s.withRecord i (some { r with flags := { r.flags with noticeLost := true } }) := by
  rw [handNotice_lost (s.withRecord_recordAt i (some r)) k h, State.withRecord_withRecord]

end Notices

/-- Settles O25: the record is made ACTIVE with its wake set and misses cleared, and then its owner is told or not. -/
theorem wakingMakesTheRecordActive : Obligations.WakingMakesTheRecordActive := by
  intro s i r hr woken
  have waking : wakeRecord i s = handNotice .active i (s.withRecord i (some woken)) := by
    unfold wakeRecord
    rw [State.modRecord_eq_withRecord hr]
    rfl
  rw [waking]
  exact ⟨fun up free => handNotice_withRecord_queued .active up free,
    fun lost => handNotice_withRecord_lost .active lost⟩

/-! ### Dormancy (R28, R31) -/

/-- Settles O29: the missed window is counted, and with every leg at its limit the test for dormancy sends the record
DORMANT, with its notice. -/
theorem dormancyWhenEveryLegIsAtItsLimit : Obligations.DormancyWhenEveryLegIsAtItsLimit := by
  intro s i n r l hr ha hl counted leg0 leg1 flags dormant limits
  have missed := State.withRecord_recordAt s i (some (r.afterMiss n l))
  have atLimit : (s.withRecord i (some (r.afterMiss n l))).allAtLimit (r.afterMiss n l) = true := by
    rw [State.allAtLimit, List.all_eq_true]
    exact fun k hk => decide_eq_true (limits k hk)
  have queues : ((s.withRecord i (some (r.afterMiss n l))).slots[i]).queue0 = (s.slots[i]).queue0 ∧
      ((s.withRecord i (some (r.afterMiss n l))).slots[i]).queue1 = (s.slots[i]).queue1 := by
    simp [State.withRecord]
  have goes : windowReport i n true false s = handNotice .dormant i (s.withRecord i (some dormant)) := by
    rw [windowReport_missed hr ha hl, testDormancy, missed]
    simp only
    rw [if_pos ⟨ha, atLimit⟩, goDormant_eq missed, State.withRecord_withRecord, queues.1, queues.2]
    rfl
  rw [goes]
  exact ⟨fun up free => handNotice_withRecord_queued .dormant up free,
    fun lost => handNotice_withRecord_lost .dormant lost⟩

/-! ### Delivered windows (R26) -/

section Delivered

variable {s : State} {i : Slot} {r : Record}

/-- Record `r` after one more delivered window of its leg 0 (R26). -/
def Record.afterDelivery (r : Record) : Record :=
  { r with
    leg0 := { r.leg0 with misses := 0 }, delivered := r.delivered + 1, remaining := r.remaining.map fun k => k - 1 }

theorem countDelivered_leg0 (hr : s.recordAt i = some r) :
    countDelivered i .leg0 s =
      if r.afterDelivery.remaining = some 0 then
        endRecord i .countDone (s.withRecord i (some r.afterDelivery))
      else s.withRecord i (some r.afterDelivery) := by
  have counted : s.modRecord i (fun r =>
      { r.mapLeg .leg0 (fun l => { l with misses := 0 }) with
        delivered := r.delivered + 1, remaining := r.remaining.map fun k => k - 1 }) =
      s.withRecord i (some r.afterDelivery) := State.modRecord_eq_withRecord hr _
  unfold countDelivered
  simp only [counted, State.withRecord_recordAt]

theorem countDelivered_leg1 (hr : s.recordAt i = some r) {l : Leg} (hl : r.leg1 = some l) :
    countDelivered i .leg1 s = s.withRecord i (some { r with leg1 := some { l with misses := 0 } }) := by
  unfold countDelivered
  simp only [State.modRecord_eq_withRecord hr, Record.mapLeg, hl, Option.map_some]

/-- A leg without a miss is below every limit above 0, so the record stays as the count left it. -/
theorem testDormancy_of_no_miss (limits : ∀ p : Port, 0 < (s.ports[p]).policy.missLimit) {l : Leg} (hl : l ∈ r.legs)
    (hm : l.misses = 0) :
    testDormancy i (s.withRecord i (some r)) = s.withRecord i (some r) :=
  testDormancy_below_limit (s.withRecord_recordAt i _) ⟨l, hl, by rw [hm]; exact limits l.egress⟩

/-- A record that has ended is not tested for dormancy any more. -/
theorem testDormancy_withEnded (why : EndReason) :
    testDormancy i (s.withEnded i why r) = s.withEnded i why r := by
  simp only [testDormancy, State.recordAt, State.withEnded_slot]
  exact if_neg nofun

end Delivered

/-! ### Entry into ENDING (R34, R41, R66) -/

section Ending

theorem retireWindow_eq (i : Slot) (w : Window) : retireWindow i w = w.retiredFor i := by
  obtain ⟨offset, length, rate, phase, owner, retiring⟩ := w
  cases owner with
  | beacon => rfl
  | leg j n =>
    by_cases h : j = i
    · simp [retireWindow, Window.retiredFor, h]
    · simp [retireWindow, Window.retiredFor, h]

theorem releaseInstance_eq (i : Slot) (c : CurrentInstance) : releaseInstance i c = c.givenUpBy i := by
  unfold releaseInstance CurrentInstance.givenUpBy
  cases c with
  | none => rfl
  | beacon e => rfl
  | window w => simp only; split <;> rfl

theorem markRetiring_frame (i : Slot) (s : State) : markRetiring i s = { s with ports := (markRetiring i s).ports } :=
  overPorts_frame _ (fun _ _ => rfl) s

theorem releaseInstances_frame (i : Slot) (s : State) :
    releaseInstances i s = { s with ports := (releaseInstances i s).ports } := overPorts_frame _ (fun _ _ => rfl) s

/-- `endRecord` is the entry into ENDING as Safety.lean spells it out. -/
theorem endRecord_eq {s : State} {i : Slot} {r : Record} (hr : s.recordAt i = some r) (why : EndReason) :
    endRecord i why s = s.withEnded i why r := by
  have hc : (s.slots[i.val]).record = some r := hr
  have ports : (endRecord i why s).ports = (s.withEnded i why r).ports := by
    refine Vector.ext fun q hq => ?_
    have left := endRecord_port i ⟨q, hq⟩ why s
    have right := s.withEnded_port i ⟨q, hq⟩ why r
    simp only [funext (retireWindow_eq i), releaseInstance_eq] at left
    exact left.trans right.symm
  have frame : endRecord i why s =
      { (flushQueues i s).modRecord i
          (fun r => { r with state := .ending, endReason := some why, wake := .empty }) with
        ports := (endRecord i why s).ports } := by
    unfold endRecord
    generalize marked : markRetiring i _ = t
    have frame := markRetiring_frame i ((flushQueues i s).modRecord i fun r =>
      { r with state := .ending, endReason := some why, wake := .empty })
    rw [marked] at frame
    rw [releaseInstances_frame, frame]
  rw [frame, ports]
  simp [State.withEnded, State.withSlot, State.modRecord, State.modSlot, flushQueues, hc, WakeSet.empty]

/-- Every installed window of a record that has ended is retiring (R60). -/
theorem State.withEnded_retiring (s : State) (i : Slot) (why : EndReason) (r : Record) (q : Port) {w : Window}
    (hw : w ∈ ((s.withEnded i why r).ports[q]).calendar) {n : LegNo} (ho : w.owner = .leg i n) : w.retiring = true := by
  rw [State.withEnded_port] at hw
  obtain ⟨v, -, rfl⟩ := List.mem_map.1 hw
  unfold Window.retiredFor at ho ⊢
  cases hv : v.owner with
  | beacon => simp only [hv] at ho; cases ho
  | leg j m =>
    simp only [hv] at ho
    cases ho
    simp

end Ending

/-- Settles O28: leg 1 counts nothing; leg 0 counts and, when its remaining count reaches 0, the record ends in the same
act. -/
theorem deliveredWindowIsCounted : Obligations.DeliveredWindowIsCounted := by
  intro s i r hr ha limits
  have report : ∀ n, windowReport i n true true s = testDormancy i (countDelivered i n s) := fun n =>
    windowReport_active hr ha true
  have more : r.remaining ≠ some 1 → r.remaining ≠ some 0 →
      windowReport i .leg0 true true s = s.withRecord i (some r.afterDelivery) := by
    intro h1 h0
    have left : r.afterDelivery.remaining ≠ some 0 := by
      show r.remaining.map _ ≠ _
      cases hk : r.remaining with
      | none => nofun
      | some k =>
        rw [hk] at h1 h0
        simp only [Option.map_some, ne_eq, Option.some.injEq] at h1 h0 ⊢
        omega
    rw [report, countDelivered_leg0 hr, if_neg left]
    exact testDormancy_of_no_miss limits List.mem_cons_self rfl
  refine ⟨fun l hl => ?_, fun none => ?_, fun k hk => ?_, fun one => ?_⟩
  · rw [report, countDelivered_leg1 hr hl]
    exact testDormancy_of_no_miss limits (l := { l with misses := 0 }) (by simp [Record.legs]) rfl
  · have unlimited : r.remaining.map (fun k => k - 1) = r.remaining := by
      rw [none]
      rfl
    rw [more (by rw [none]; nofun) (by rw [none]; nofun), Record.afterDelivery, unlimited]
  · rw [more (by rw [hk]; simp) (by rw [hk]; simp), Record.afterDelivery, hk]
    rfl
  · have ended : windowReport i .leg0 true true s =
        s.withEnded i .countDone
          { r with leg0 := { r.leg0 with misses := 0 }, delivered := r.delivered + 1, remaining := some 0 } := by
      have last : r.afterDelivery =
          { r with leg0 := { r.leg0 with misses := 0 }, delivered := r.delivered + 1, remaining := some 0 } := by
        rw [Record.afterDelivery, one]
        rfl
      rw [report, countDelivered_leg0 hr, last, if_pos rfl, endRecord_eq (s.withRecord_recordAt i _),
        testDormancy_withEnded]
      simp [State.withEnded, State.withSlot, State.withRecord]
    refine ⟨ended, ?_, ?_, fun p w hw n ho => ?_⟩
    · rw [ended, State.recordAt, State.withEnded_slot]
    · rw [ended, State.withEnded_slot]
      exact ⟨rfl, rfl⟩
    · rw [ended] at hw
      exact State.withEnded_retiring _ _ _ _ p hw ho

end Sys2Proof.Machine

/-! SUPPORT. Windows and transmitters (chapters 06 and 07): ends of transmissions and of instances, openings, readiness,
and what a port's scheduler chooses. -/

namespace Sys2Proof.Machine

/-! ### Ends of transmissions (R139, R113) -/

section TransmitEnd

variable {s : State} {p : Port} {c : Claimant} {f : Frame} {endAt : Nat}

theorem transmissionEnded_iff :
    transmissionEnded p s = true ↔ ∃ c f endAt, (s.ports[p]).tx = .busy c f endAt ∧ endAt ≤ s.time.now := by
  unfold transmissionEnded
  cases (s.ports[p]).tx with
  | free => simp
  | busy c f t => simp

theorem endTransmission_of_reply (busy : (s.ports[p]).tx = .busy c f endAt) {g : ControlFrame} {m : MasterIndex}
    (hc : c = .control g) (hg : g.cls = .reply m) :
    endTransmission p s = replyGone m (s.withPort p { s.ports[p] with tx := .free }) := by
  subst hc
  simp only [endTransmission, busy, hg]
  rfl

theorem endTransmission_of_other (busy : (s.ports[p]).tx = .busy c f endAt)
    (other : ∀ g m, c = .control g → g.cls ≠ .reply m) :
    endTransmission p s = s.withPort p { s.ports[p] with tx := .free } := by
  unfold endTransmission
  rw [busy]
  cases c with
  | control g =>
    cases hg : g.cls with
    | reply m => exact absurd hg (other g m rfl)
    | notice n => simp only [hg]; rfl
    | other => simp only [hg]; rfl
  | beacon => rfl
  | window i n => rfl
  | openFrame => rfl

theorem exec_frameTransmitEnd_of_due (reset : s.resetAsserted = false) (due : transmissionEnded p s = true) :
    exec (.frameTransmitEnd p) s = .next (settleEgress (endTransmission p s)) := by
  simp only [exec, execFrameTransmitEnd, reset, due, Bool.false_eq_true, if_false, if_true]

end TransmitEnd

/-- Settles O21: a reply's end frees its master, and any other frame's the transmitter alone. -/
theorem transmissionEndFreesTransmitterAndMaster : Obligations.TransmissionEndFreesTransmitterAndMaster := by
  intro p s c f endAt reset busy past freed leaves
  have acts : ∀ u, endTransmission p s = u → leaves u := fun u hu =>
    ⟨hu, hu ▸ exec_frameTransmitEnd_of_due reset (transmissionEnded_iff.2 ⟨c, f, endAt, busy, past⟩)⟩
  refine ⟨fun g m e hc hg entry due => acts _ ?_, fun other => acts _ (endTransmission_of_other busy other)⟩
  rw [endTransmission_of_reply busy hc hg]
  exact replyGone_eq (s := freed) entry due

/-! ### Openings (R7, R11, R12) -/

section Openings

variable {s : State} {p : Port} {w : Window}

/-- The first entry that meets a test, when one entry alone can. -/
theorem find?_eq_some_of_unique {α : Type} {l : List α} {f : α → Bool} {a : α} (h : ∀ b ∈ l, f b = true → b = a) :
    l.find? f = some a ↔ a ∈ l ∧ f a = true := by
  constructor
  · exact fun found => ⟨List.mem_of_find?_eq_some found, List.find?_some found⟩
  · rintro ⟨mem, meets⟩
    obtain ⟨b, found⟩ := Option.isSome_iff_exists.1 (List.find?_isSome.2 ⟨a, mem, meets⟩)
    rw [found, h b (List.mem_of_find?_eq_some found) (List.find?_some found)]

theorem State.settling_eq_false_iff (due : s.time.boundaryDue = .none) : s.settling = false ↔ s.time.settle = 0 := by
  simp [State.settling, due]

theorem State.opensNow_iff :
    s.opensNow p w = true ↔
      s.time.settle = 0 ∧ s.time.boundaryDue = .none ∧ s.time.b % 2 ^ w.rate = w.phase ∧ s.time.tick = w.offset ∧
        openingTaken (s.ports[p]).current w s.time.now = false := by
  simp only [State.opensNow, Window.inBaseCycle, occupies, Bool.and_eq_true, Bool.not_eq_true', beq_iff_eq]
  constructor
  · rintro ⟨⟨⟨⟨settled, due⟩, inside⟩, here⟩, fresh⟩
    exact ⟨(State.settling_eq_false_iff due).1 settled, due, inside, here.symm, fresh⟩
  · rintro ⟨settled, due, inside, here, fresh⟩
    exact ⟨⟨⟨⟨(State.settling_eq_false_iff due).2 settled, due⟩, inside⟩, here.symm⟩, fresh⟩

theorem State.owner_of_openingOf {o : WindowOwner} (h : s.openingOf p o = some w) : w.owner = o := by
  have meets := List.find?_some h
  simp only [Bool.and_eq_true, beq_iff_eq] at meets
  exact meets.1

theorem exec_windowOpening_of_due {o : WindowOwner} (reset : s.resetAsserted = false) (h : s.openingOf p o = some w) :
    exec (.windowOpening p o) s = .next (settleEgress (openWindow p w s)) := by
  simp only [exec, execWindowOpening, reset, h, Bool.false_eq_true, if_false]

end Openings

/-- Settles O22: the window is the one with its owner in the calendar, so it is found exactly when its opening is now.
-/
theorem openingsAreRaisedAtTheirOffsets : Obligations.OpeningsAreRaisedAtTheirOffsets := by
  intro s p w unique taken
  have notTaken : openingTaken (s.ports[p]).current w s.time.now = false ↔ ¬taken := by
    show _ ↔ ¬(match (s.ports[p]).current with | .none => _ | .beacon _ => _ | .window _ => _)
    unfold openingTaken
    cases (s.ports[p]).current with
    | none => simp
    | beacon t => simp
    | window i => simp
  have found : s.openingOf p w.owner = some w ↔ w ∈ (s.ports[p]).calendar ∧ s.opensNow p w = true := by
    rw [State.openingOf, find?_eq_some_of_unique]
    · simp
    · intro v hv meets
      simp only [Bool.and_eq_true, beq_iff_eq] at meets
      exact unique v hv meets.1
  rw [found, State.opensNow_iff, notTaken]

/-- Settles O23: what falls due is taken, the beacon instance becomes current, and an UP port with a FREE transmitter
and a captured content starts the beacon. -/
theorem beaconStartsAtItsOpening : Obligations.BeaconStartsAtItsOpening := by
  intro s p w reset opens t opened
  have quiet : Quiet s t := Quiet.clearForOpening p s
  have current : (t.modPort p fun ps => { ps with current := .beacon (t.time.now + w.length) }) =
      t.withPort p opened := by
    rw [quiet.time]
    rfl
  have begun : openWindow p w s = startBeacon p (t.withPort p opened) := by
    rw [← current, openWindow, State.owner_of_openingOf opens]
    rfl
  have speed : (t.withPort p opened).portSpeed p = s.portSpeed p := by
    rw [← quiet.portSpeed p]
    simp only [State.portSpeed, State.withPort_port_self, opened]
  have tx : ((t.withPort p opened).ports[p]).tx = (t.ports[p]).tx := by rw [State.withPort_port_self]
  have held : (t.withPort p opened).beacon = s.beacon := quiet.beacon
  rw [exec_windowOpening_of_due reset opens, begun]
  refine ⟨fun content sp hcontent hsp free => ?_, fun none => ?_⟩
  · have starts : startBeacon p (t.withPort p opened) =
        (t.withPort p opened).withPort p
          { (t.withPort p opened).ports[p] with
            tx := .busy .beacon (frameOfMessage t.straps.unit broadcast (.beacon content))
              (t.time.now + wireTime sp controlFrameLength) } := by
      simp only [startBeacon, speed, hsp, tx, free, held, hcontent]
      rfl
    rw [starts, State.withPort_port_self, quiet.straps, quiet.time]
    simp only [State.withPort, Vector.set_set]
    rfl
  · have rests : startBeacon p (t.withPort p opened) = t.withPort p opened := by
      unfold startBeacon
      rw [speed, tx, held]
      split
      · next content hspeed free hcontent =>
        rcases none with h | h | h
        · rw [h] at hcontent; cases hcontent
        · rw [h] at hspeed; cases hspeed
        · exact absurd free h
      · rfl
    rw [rests]

/-! ### Ends of instances (R135, R145) -/

section InstanceEnd

variable {s : State} {p : Port}

theorem instanceEnded_iff :
    instanceEnded p s = true ↔
      (∃ endAt, (s.ports[p]).current = .beacon endAt ∧ endAt ≤ s.time.now) ∨
        ∃ w, (s.ports[p]).current = .window w ∧ w.endAt ≤ s.time.now := by
  unfold instanceEnded
  cases (s.ports[p]).current with
  | none => simp
  | beacon t => simp
  | window w => simp

theorem exec_windowEnd_of_due (reset : s.resetAsserted = false) (due : instanceEnded p s = true) :
    exec (.windowEnd p) s = .next (settleEgress (endInstance p s)) := by
  simp only [exec, execWindowEnd, reset, due, Bool.false_eq_true, if_false, if_true]

theorem windowReport_of_not_live (i : Slot) (n : LegNo) (delivered : Bool) :
    windowReport i n false delivered s = s := by
  unfold windowReport
  split
  · rfl
  · simp

theorem windowReport_of_not_active {i : Slot} {r : Record} (hr : s.recordAt i = some r) (ha : r.state ≠ .active)
    (n : LegNo) (live delivered : Bool) : windowReport i n live delivered s = s := by
  simp [windowReport, hr, ha]

/-- HOLD: late entries are marked ready (R135). -/
theorem applyLatePolicy_hold (h : (s.ports[p]).policy.late = .hold) (i : Slot) (n : LegNo) :
    applyLatePolicy p i n s = s.withSlot i ((s.slots[i]).withQueue n
      (((s.slots[i]).queue n).map fun e => { e with mark := if e.mark = .late then .ready else e.mark })) := by
  have marks : (fun e : HoldEntry => if e.mark = .late then { e with mark := .ready } else e) =
      fun e => { e with mark := if e.mark = .late then .ready else e.mark } := by
    funext e
    split <;> rfl
  simp only [applyLatePolicy, h, marks, State.modSlot_eq_withSlot, SlotCell.setQueue_eq]

/-- DROP: late entries go into the dropped frames (R135). -/
theorem applyLatePolicy_drop (h : (s.ports[p]).policy.late = .drop) {i : Slot} {r : Record}
    (hr : s.recordAt i = some r) (n : LegNo) :
    applyLatePolicy p i n s = s.withSlot i (SlotCell.withQueue
      { s.slots[i] with
        record := some
          { r with
            droppedFrames :=
              satAdd r.droppedFrames ((((s.slots[i]).queue n).filter fun e => e.mark == .late).length) } }
      n (((s.slots[i]).queue n).filter fun e => e.mark != .late)) := by
  have hc : (s.slots[i]).record = some r := hr
  simp only [applyLatePolicy, h, State.modSlot_eq_withSlot, SlotCell.setQueue_eq, hc, Option.map_some]
  cases n <;> rfl

end InstanceEnd

/-- Settles O26: by the kind of the instance that ends, and for one that opened live by the late policy of its port. -/
theorem windowEndClosesTheInstance : Obligations.WindowEndClosesTheInstance := by
  intro s p reset closed leaves
  have acts : ∀ u, instanceEnded p s = true → endInstance p s = u → leaves u := fun u due hu =>
    ⟨hu, hu ▸ exec_windowEnd_of_due reset due⟩
  refine ⟨fun endAt beacon past => acts _ (instanceEnded_iff.2 (.inl ⟨endAt, beacon, past⟩)) ?_,
    fun w window past => ?_⟩
  · simp only [endInstance, beacon]
    rfl
  have due : instanceEnded p s = true := instanceEnded_iff.2 (.inr ⟨w, window, past⟩)
  refine ⟨fun lent => acts _ due ?_, ?_⟩
  · simp only [endInstance, window, lent, if_true, windowReport_of_not_live]
    rfl
  intro live r hr queue held dropped treated
  have policy : (closed.ports[p]).policy.late = (s.ports[p]).policy.late := by
    simp only [closed, State.withPort_port_self]
  have treats : applyLatePolicy p w.slot w.leg closed = treated := by
    cases late : (s.ports[p]).policy.late with
    | hold =>
      have hold : treated = held := if_pos late
      rw [applyLatePolicy_hold (policy.trans late), hold]
      rfl
    | drop =>
      have drop : treated = dropped := if_neg (by rw [late]; nofun)
      rw [applyLatePolicy_drop (policy.trans late) (r := r) hr, drop]
      rfl
  have ended : endInstance p s = windowReport w.slot w.leg true (decide (0 < w.sent)) treated := by
    rw [← treats]
    simp only [endInstance, window, if_neg live]
    rfl
  have record : ∃ r', treated.recordAt w.slot = some r' ∧ r'.state = r.state := by
    simp only [treated]
    split
    · exact ⟨r, (State.withSlot_recordAt ..).trans hr, rfl⟩
    · exact ⟨_, State.withSlot_recordAt .., rfl⟩
  obtain ⟨r', hr', same⟩ := record
  refine ⟨acts _ due ended, fun inactive => acts _ due (ended.trans ?_)⟩
  exact windowReport_of_not_active hr' (same ▸ inactive) _ _ _

/-! ### The class of an opening (R142) -/

section OpeningClass

variable {s : State} {p : Port} {w : Window} {i : Slot} {n : LegNo} {r : Record}

theorem openReservation_of_active (hr : s.recordAt i = some r) (free : (s.ports[p]).tx = .free)
    (ha : r.state = .active) : openReservation p w i n s = beginInstance p w i n .live s := by
  simp only [openReservation, hr]
  rw [if_neg (not_not.2 free), if_pos ha]

theorem openReservation_of_waking (hr : s.recordAt i = some r) (free : (s.ports[p]).tx = .free)
    (hd : r.state = .dormant) (inSet : r.wake.has n = true) :
    openReservation p w i n s = beginInstance p w i n .live (wakeRecord i s) := by
  simp only [openReservation, hr]
  rw [if_neg (not_not.2 free), if_neg (by rw [hd]; nofun), if_pos ⟨hd, inSet⟩]

theorem openReservation_of_neither
    (inactive : ¬∃ r, s.recordAt i = some r ∧ r.state = .active ∧ (s.ports[p]).tx = .free)
    (asleep : ¬∃ r, s.recordAt i = some r ∧ r.state = .dormant ∧ r.wake.has n = true ∧ (s.ports[p]).tx = .free) :
    openReservation p w i n s = beginInstance p w i n .lent s := by
  fun_cases openReservation p w i n s
  case case3 r hr free ha => exact absurd ⟨r, hr, ha, not_not.1 free⟩ inactive
  case case4 r hr free _ hd => exact absurd ⟨r, hr, hd.1, hd.2, not_not.1 free⟩ asleep
  all_goals rfl

end OpeningClass

/-- Settles O24: what falls due is taken, and the opening is classed by the record and the transmitter it then finds. -/
theorem openingIsClassedLiveOrLent : Obligations.OpeningIsClassedLiveOrLent := by
  refine ⟨fun s p => ⟨transmissionEnded_iff, instanceEnded_iff, rfl⟩, ?_⟩
  intro s p i n w reset opens t wakes active opened
  have quiet : Quiet s t := Quiet.clearForOpening p s
  have begins : ∀ (cls : WindowClass) (u : State), u.time = s.time →
      beginInstance p w i n cls u = u.withPort p { u.ports[p] with current := opened cls } := by
    intro cls u hu
    rw [beginInstance, hu]
    rfl
  have opening : openWindow p w s = openReservation p w i n t := by
    simp only [openWindow, State.owner_of_openingOf opens]
    rfl
  rw [exec_windowOpening_of_due reset opens, opening]
  refine ⟨?_, fun inactive asleep => ?_, ?_⟩
  · rintro ⟨r, hr, ha, free⟩
    rw [openReservation_of_active hr free ha, begins .live t quiet.time]
  · rw [openReservation_of_neither inactive asleep, begins .lent t quiet.time]
  · rintro ⟨r, hr, hd, inSet, free⟩
    rw [openReservation_of_waking hr free hd inSet,
      begins .live _ ((Quiet.wakeRecord i t).time.trans quiet.time)]

end Sys2Proof.Machine

/-! SUPPORT. Motion frames (chapter 06): the stream check accepts what passes its steps, and a held frame becomes
ready on time or late. -/

namespace Sys2Proof.Machine

/-! ### Accepted frames (R126, R128, R129) -/

section Accepted

variable {s : State} {p : Port} {f : Frame} {i : Slot} {r : Record} {n : LegNo} {l : Leg}

theorem Record.legEntering_eq (hl : r.leg n = some l) (hp : l.ingress = p) (first : n = .leg1 → r.leg0.ingress ≠ p) :
    r.legEntering p = some n := by
  cases n with
  | leg0 =>
    cases hl
    simp [Record.legEntering, hp]
  | leg1 =>
    have h1 : r.leg1 = some l := hl
    simp [Record.legEntering, first rfl, h1, hp]

/-- What passes each step of the stream check is accepted (R126). -/
theorem State.streamCheck_eq (stream : streamFieldOf f = i.val * 32 + (s.slots[i]).reuse.toNat)
    (hr : s.recordAt i = some r) (hs : r.state = .active ∨ r.state = .dormant) (hl : r.leg n = some l)
    (hp : l.ingress = p) (first : n = .leg1 → r.leg0.ingress ≠ p) : s.streamCheck p f = some (i, n) := by
  have resolved : s.resolve (streamFieldOf f) = some i := State.resolve_eq.2 ⟨by rw [hr]; rfl, stream.symm⟩
  simp only [State.streamCheck, resolved, hr]
  rw [if_pos hs, Record.legEntering_eq hl hp first, Option.map_some]

theorem State.oversize_iff (hr : s.recordAt i = some r) (hl : r.leg n = some l) :
    s.oversize i n f = true ↔ l.frameSize < f.length := by
  simp [State.oversize, hr, hl]

theorem acceptMotion_eq (hr : s.recordAt i = some r) (hl : r.leg n = some l) :
    acceptMotion i n f s =
      if l.frameSize < f.length then s.withRecord i (some (countOversize r))
      else if ((s.slots[i]).queue n).length < 4 then
        s.withSlot i ((s.slots[i]).withQueue n
          ((s.slots[i]).queue n ++ [{ frame := f, readyAt := s.time.now + 256, mark := .waiting }]))
      else s.withRecord i (some (countOverflow r)) := by
  unfold acceptMotion
  simp only [State.oversize_iff hr hl, State.modRecord_eq_withRecord hr, State.modSlot_eq_withSlot,
    SlotCell.setQueue_eq, forwardingLead]

end Accepted

/-- Settles O34: the stream check accepts the frame, whose length and hold queue then decide. -/
theorem acceptedMotionFramesAreHeld : Obligations.AcceptedMotionFramesAreHeld := by
  intro s p f i r n l reset up fcs hmin hmax ht stream hr hs hl hp first dropped entry
  rw [exec_frameReceived_of_up reset up, takeFrame_of_motion (isErrorFrame_eq_false_iff.2 ⟨fcs, hmin, hmax⟩) ht]
  simp only [takeMotion, State.streamCheck_eq stream hr hs hl hp first, acceptMotion_eq hr hl, countOversize,
    countOverflow, satSucc_eq]
  rfl

/-! ### Readiness (R131, R133, R134) -/

section Ready

variable {s : State} {i : Slot} {n : LegNo} {r : Record} {l : Leg} {before after : List HoldEntry} {e : HoldEntry}

/-- The oldest waiting frame stands behind those that have their mark. -/
theorem find?_waiting (marked : ∀ x ∈ before, x.mark ≠ .waiting) (waits : e.mark = .waiting) :
    (before ++ e :: after).find? (fun e => e.mark == .waiting) = some e := by
  have none : before.find? (fun e => e.mark == .waiting) = none := by simpa [List.find?_eq_none] using marked
  simp [List.find?_append, none, waits]

theorem markOldest_eq (m : Mark) (marked : ∀ x ∈ before, x.mark ≠ .waiting) (waits : e.mark = .waiting) :
    markOldest m (before ++ e :: after) = before ++ { e with mark := m } :: after := by
  induction before with
  | nil => simp [markOldest, waits]
  | cons x xs ih =>
    obtain ⟨hx, hxs⟩ := List.forall_mem_cons.1 marked
    simp only [List.cons_append, markOldest, if_neg hx, ih hxs]

theorem openedLive_iff {c : CurrentInstance} :
    openedLive c i n = true ↔ ∃ w, c = .window w ∧ w.slot = i ∧ w.leg = n ∧ w.cls ≠ .lent := by
  unfold openedLive
  cases c with
  | none => simp
  | beacon t => simp
  | window w => simp [and_assoc]

theorem exec_frameReady_of_due (reset : s.resetAsserted = false)
    (due : frameDue ((s.slots[i]).queue n) s.time.now = true) :
    exec (.frameReady i n) s = .next (settleEgress (becomeReady i n s)) := by
  simp only [exec, execFrameReady, reset, due, Bool.false_eq_true, if_false, if_true]

/-- A DORMANT record's leg joins the wake set (R29). -/
theorem WakeSet.add_of_dormant (w : WakeSet) (st : RecordState) (n : LegNo) :
    (if st = .dormant then w.add n else w) =
      { leg0 := w.leg0 || (st == .dormant && n == .leg0), leg1 := w.leg1 || (st == .dormant && n == .leg1) } := by
  by_cases h : st = .dormant
  · cases n <;> simp [h, WakeSet.add]
  · simp only [if_neg h, beq_eq_false_iff_ne.2 h, Bool.false_and, Bool.or_false]

/-- The oldest waiting frame is marked, the record judged, and a DORMANT record's leg joins the wake set: one change
of the slot. -/
theorem markJudgeWake_eq (hr : s.recordAt i = some r) (m : Mark) {judge : Record → Record}
    (wake : (judge r).wake = r.wake) :
    (let judged := (s.modSlot i fun c => c.setQueue n (markOldest m (c.queue n))).modRecord i judge
      if r.state = .dormant then judged.modRecord i fun r => { r with wake := r.wake.add n } else judged) =
    s.withSlot i (SlotCell.withQueue
      { s.slots[i] with
        record := some
          { judge r with
            wake :=
              { leg0 := r.wake.leg0 || (r.state == .dormant && n == .leg0)
                leg1 := r.wake.leg1 || (r.state == .dormant && n == .leg1) } } }
      n (markOldest m ((s.slots[i]).queue n))) := by
  have kept : ((s.slots[i]).withQueue n (markOldest m ((s.slots[i]).queue n))).record = some r := hr
  rw [State.modSlot_eq_withSlot, SlotCell.setQueue_eq, ← WakeSet.add_of_dormant, State.withSlot_modRecord, kept,
    Option.map_some]
  dsimp only
  split
  · rw [State.withSlot_modRecord, Option.map_some, wake]
    rfl
  · rw [← wake]
    rfl

/-- Inside an instance that opened live the frame is late (R134). -/
theorem becomeReady_late (hr : s.recordAt i = some r) (hl : r.leg n = some l)
    (live : openedLive (s.ports[l.egress]).current i n = true) :
    becomeReady i n s = s.withSlot i (SlotCell.withQueue
      { s.slots[i] with
        record := some
          { countLate r with
            wake :=
              { leg0 := r.wake.leg0 || (r.state == .dormant && n == .leg0)
                leg1 := r.wake.leg1 || (r.state == .dormant && n == .leg1) } } }
      n (markOldest .late ((s.slots[i]).queue n))) := by
  rw [← markJudgeWake_eq hr .late (judge := countLate) rfl]
  simp only [becomeReady, hr, hl, live, if_true]

/-- Outside it is on time, and its lead lowers the leg's smallest (R133). -/
theorem becomeReady_onTime (hr : s.recordAt i = some r) (hl : r.leg n = some l)
    (notLive : openedLive (s.ports[l.egress]).current i n = false) :
    becomeReady i n s = s.withSlot i (SlotCell.withQueue
      { s.slots[i] with
        record := some
          { r.mapLeg n (fun l => { l with smallestLead := lowerLead l.smallestLead (s.leadOf r l) }) with
            wake :=
              { leg0 := r.wake.leg0 || (r.state == .dormant && n == .leg0)
                leg1 := r.wake.leg1 || (r.state == .dormant && n == .leg1) } } }
      n (markOldest .ready ((s.slots[i]).queue n))) := by
  rw [← markJudgeWake_eq hr .ready
    (judge := fun r => r.mapLeg n fun l => { l with smallestLead := lowerLead l.smallestLead (s.leadOf r l) })
    (by cases n <;> rfl)]
  simp only [becomeReady, hr, hl, notLive, Bool.false_eq_true, if_false]

end Ready

/-- Settles O30: the oldest waiting frame is due, and whether the leg's instance opened live decides its report. -/
theorem readinessIsOnTimeOrLate : Obligations.ReadinessIsOnTimeOrLate := by
  intro s i n r l before after e reset hr hl hq marked waits past insideLive lead onTime wake
  have due : frameDue ((s.slots[i]).queue n) s.time.now = true := by
    rw [frameDue, hq, find?_waiting marked waits]
    exact decide_eq_true past
  have inside : openedLive (s.ports[l.egress]).current i n = true ↔ insideLive := openedLive_iff
  rw [exec_frameReady_of_due reset due]
  refine ⟨fun outside => ?_, fun within => ?_⟩
  · have notLive : openedLive (s.ports[l.egress]).current i n = false := by
      rw [← Bool.not_eq_true, inside]
      exact outside
    have judged : { l with smallestLead := lowerLead l.smallestLead (s.leadOf r l) } = onTime := by
      simp only [onTime]
      cases l.smallestLead <;> rfl
    rw [becomeReady_onTime hr hl notLive, hq, markOldest_eq .ready marked waits, Record.mapLeg_eq hl, judged]
  · rw [becomeReady_late hr hl (inside.2 within), hq, markOldest_eq .late marked waits, countLate, satSucc_eq]

end Sys2Proof.Machine

/-! SUPPORT. The choice of a port's next frame (chapter 07): in a live instance and in open time. -/

namespace Sys2Proof.Machine

section Choice

variable {s : State} {p : Port} {sp : Speed}

/-! ### When there is nothing to choose (R140) -/

theorem chooseFrame_of_not_ready (h : s.portSpeed p = none ∨ (s.ports[p]).tx ≠ .free) : chooseFrame p s = s := by
  unfold chooseFrame
  rcases h with down | busy
  · rw [down]
  · split
    · next _ free => exact absurd free busy
    · rfl

/-! ### In a live instance (R143) -/

theorem chooseFrame_of_live {w : WindowInstance} (hsp : s.portSpeed p = some sp) (free : (s.ports[p]).tx = .free)
    (hw : (s.ports[p]).current = .window w) (live : w.cls = .live) : chooseFrame p s = startWindowFrame p sp w s := by
  simp only [chooseFrame, hsp, free, hw, live, if_true]

theorem startWindowFrame_of_empty {w : WindowInstance} (hq : (s.slots[w.slot]).queue w.leg = []) :
    startWindowFrame p sp w s = s := by
  unfold startWindowFrame
  rw [hq]
  split
  · rfl
  · split
    · next heq => cases heq
    · rfl

theorem Mark.ne_waiting_iff (m : Mark) : m ≠ .waiting ↔ m = .ready ∨ m = .late := by
  cases m <;> simp

/-- The head of the leg's queue, on its way or kept. -/
theorem startWindowFrame_eq {w : WindowInstance} {r : Record} {l : Leg} {e : HoldEntry} {rest : List HoldEntry}
    (hr : s.recordAt w.slot = some r) (hl : r.leg w.leg = some l) (hq : (s.slots[w.slot]).queue w.leg = e :: rest) :
    startWindowFrame p sp w s =
      if (e.mark = .ready ∨ e.mark = .late) ∧ w.sent < l.framesPerWindow ∧
          s.time.now + wireTime sp e.frame.length ≤ w.endAt then
        (s.withSlot w.slot ((s.slots[w.slot]).withQueue w.leg rest)).withPort p
          { s.ports[p] with
            tx := .busy (.window w.slot w.leg) e.frame (s.time.now + wireTime sp e.frame.length)
            current := .window { w with sent := w.sent + 1 } }
      else s := by
  simp only [startWindowFrame, hr, hl, hq, Mark.ne_waiting_iff, State.modSlot_eq_withSlot, SlotCell.setQueue_eq,
    State.modPort_eq_withPort]
  rfl

/-! ### In open time (R146, R147) -/

/-- A frame fits before the end of the settle period, or before the next opening of every bounding window (R9, R146). -/
theorem State.fits_iff {wire : Nat} :
    s.fits p wire = true ↔
      if 0 < s.time.settle ∨ s.time.boundaryDue = .endOfSettle then
        wire ≤ s.time.settle * s.cycleTicks - s.time.tick
      else
        ∀ w ∈ (s.ports[p]).calendar, s.bounding w = true → wire ≤ w.distance s.cycleTicks s.time.b s.time.tick := by
  have settling : s.settling = true ↔ 0 < s.time.settle ∨ s.time.boundaryDue = .endOfSettle := by
    simp [State.settling]
  unfold State.fits
  by_cases h : s.settling = true
  · rw [if_pos h, if_pos (settling.1 h), decide_eq_true_iff]
  · rw [if_neg h, if_neg fun k => h (settling.2 k)]
    simp [imp_iff_not_or]

theorem chooseFrame_of_open (hsp : s.portSpeed p = some sp) (free : (s.ports[p]).tx = .free)
    (notLive : ∀ w, (s.ports[p]).current = .window w → w.cls ≠ .live) :
    chooseFrame p s = startOpenTimeFrame p sp s := by
  unfold chooseFrame
  rw [hsp, free]
  dsimp only
  split
  · next w hw => rw [if_neg (notLive w hw)]
  · rfl
  · rfl

theorem startOpenTimeFrame_control {f : ControlFrame} {rest : List ControlFrame}
    (hq : (s.ports[p]).controlQueue = f :: rest) (fits : s.fits p (wireTime sp controlFrameLength) = true) :
    startOpenTimeFrame p sp s = s.withPort p
      { s.ports[p] with
        tx := .busy (.control f) (frameOfMessage s.straps.unit f.dest f.message)
          (s.time.now + wireTime sp controlFrameLength)
        controlQueue := rest } := by
  simp only [startOpenTimeFrame, hq, fits, if_true]
  rfl

theorem startOpenTimeFrame_open
    (h : (s.ports[p]).controlQueue = [] ∨ ¬s.fits p (wireTime sp controlFrameLength) = true) :
    startOpenTimeFrame p sp s = startOpenHead p sp s := by
  fun_cases startOpenTimeFrame p sp s
  case case1 f rest hq fits =>
    rcases h with h | h
    · rw [h] at hq; cases hq
    · exact absurd fits h
  all_goals rfl

theorem startOpenHead_fits {f : Frame} {rest : List Frame} (hq : (s.ports[p]).openQueue = f :: rest)
    (fits : s.fits p (wireTime sp f.length) = true) :
    startOpenHead p sp s = s.withPort p
      { s.ports[p] with tx := .busy .openFrame f (s.time.now + wireTime sp f.length), openQueue := rest } := by
  simp only [startOpenHead, hq, fits, if_true]
  rfl

theorem startOpenHead_of_long
    (h : ∀ f, (s.ports[p]).openQueue.head? = some f → ¬s.fits p (wireTime sp f.length) = true) :
    startOpenHead p sp s = s := by
  fun_cases startOpenHead p sp s
  case case1 f rest hq fits => exact absurd fits (h f (by rw [hq]; rfl))
  all_goals rfl

end Choice

/-- Settles O20: by the transmitter, the current instance, and the heads of the queues. -/
theorem liveInstanceSendsItsReadyHead : Obligations.LiveInstanceSendsItsReadyHead := by
  refine ⟨fun s => rfl, fun p s h => chooseFrame_of_not_ready h, fun p s w hw live hq => ?_, ?_, ?_⟩
  · by_cases ready : s.portSpeed p = none ∨ (s.ports[p]).tx ≠ .free
    · exact chooseFrame_of_not_ready ready
    · obtain ⟨up, free⟩ := not_or.1 ready
      obtain ⟨sp, hsp⟩ := Option.ne_none_iff_exists'.1 up
      rw [chooseFrame_of_live hsp (not_not.1 free) hw live, startWindowFrame_of_empty hq]
  · intro p s sp w r l e rest hsp free hw live hr hl hq endAt
    rw [chooseFrame_of_live hsp free hw live, startWindowFrame_eq hr hl hq]
    rfl
  · intro p s sp hsp free notLive fits controlWire openWire
    have fit : ∀ wire, s.fits p wire = true ↔ fits wire := fun wire => State.fits_iff
    rw [chooseFrame_of_open hsp free notLive]
    refine ⟨fun f rest hq short => startOpenTimeFrame_control hq ((fit _).2 short), fun notControl => ?_⟩
    rw [startOpenTimeFrame_open (notControl.imp_right fun long h => long ((fit _).1 h))]
    exact ⟨fun f rest hq short => startOpenHead_fits hq ((fit _).2 short),
      fun long => startOpenHead_of_long fun f hf h => long f hf ((fit _).1 h)⟩

end Sys2Proof.Machine

/-! SUPPORT. The door of the conversation unit (chapter 05): the checks of R101 one by one, the queued requests that
pass them, and the control frames that reach it. -/

namespace Sys2Proof.Machine

/-! ### Request kinds (R189) -/

theorem requestKindOf_iff {n : Nat} {k : RequestKind} : requestKindOf n = some k ↔ n = k.code := by
  constructor
  · intro h
    unfold requestKindOf at h
    split at h <;> cases h <;> rfl
  · rintro rfl
    cases k <;> rfl

theorem RequestKind.administrator_iff (k : RequestKind) :
    k.administrator = true ↔ k ≠ .claim ∧ k ≠ .release ∧ k ≠ .query := by
  cases k <;> decide

/-- The kinds answered at once are three; every other one is queued (R101 step 4). -/
theorem decodeBody_queued {k : RequestKind} (f : Frame) (h : k ≠ .query ∧ k ≠ .readCalendar ∧ k ≠ .readPort) :
    ∃ b, decodeBody k f = .queued b := by
  obtain ⟨hq, hc, hp⟩ := h
  cases k
  case query => exact absurd rfl hq
  case readCalendar => exact absurd rfl hc
  case readPort => exact absurd rfl hp
  all_goals exact ⟨_, rfl⟩

section Door

variable {s : State} {p : Port} {f : Frame} {k : RequestKind}

theorem refuseAtDoor_eq (st : Status) (body : AnswerBody) :
    refuseAtDoor p f st body s = s.toldAtDoor p (sourceOf f) (BitVec.ofNat 8 (kindOf f)) (tagOf f) st body :=
  sendNonReply_eq ..

/-! ### The checks of R101, one by one -/

/-- The device answers STARTING until the end of the settle period is taken (R9). -/
theorem State.settling_eq_false (past : s.time.settle = 0) (taken : s.time.boundaryDue ≠ .endOfSettle) :
    s.settling = false := by
  simp [State.settling, past, taken]

theorem takeRequest_of_settling (h : s.settling = true) :
    takeRequest p f s = refuseAtDoor p f .starting .kindAlone s := by
  rw [takeRequest, if_pos h]

section Settled

variable (settled : s.settling = false)
include settled

theorem takeRequest_of_no_kind (h : requestKindOf (kindOf f) = none) :
    takeRequest p f s = refuseAtDoor p f .invalid .kindAlone s := by
  simp [takeRequest, settled, h]

variable (kind : requestKindOf (kindOf f) = some k)
include kind

theorem takeRequest_of_bad_length (h : bodyLengthOf f ≠ k.bodyLength) :
    takeRequest p f s = refuseAtDoor p f .invalid .kindAlone s := by
  simp [takeRequest, settled, kind, h]

variable (length : bodyLengthOf f = k.bodyLength)
include length

theorem takeRequest_of_not_admin (ha : k.administrator = true) (hp : p ≠ s.straps.adm) :
    takeRequest p f s = refuseAtDoor p f .notAdmin .kindAlone s := by
  simp [takeRequest, settled, kind, length, ha, hp]

variable (allowed : k.administrator = true → p = s.straps.adm)
include allowed

theorem takeRequest_of_immediate {b : ImmediateBody} (hb : decodeBody k f = .immediate b) :
    takeRequest p f s =
      { s with inbox := s.inbox ++ [{ port := p, addr := sourceOf f, tag := tagOf f, body := b }] } := by
  have passes : ¬(k.administrator = true ∧ p ≠ s.straps.adm) := fun h => h.2 (allowed h.1)
  simp only [takeRequest, settled, kind, length, if_neg passes, hb, ne_eq, not_true, if_false, Bool.false_eq_true]

theorem takeRequest_of_queued {b : QueuedBody} (hb : decodeBody k f = .queued b) :
    takeRequest p f s = takeQueued p f k b s := by
  have passes : ¬(k.administrator = true ∧ p ≠ s.straps.adm) := fun h => h.2 (allowed h.1)
  simp only [takeRequest, settled, kind, length, if_neg passes, hb, ne_eq, not_true, if_false, Bool.false_eq_true]

end Settled

/-! ### Steps 5 to 7 of R101: the master of a queued request -/

section Queued

variable {m : MasterIndex} {e : Master} {b : QueuedBody}

theorem takeQueued_of_busy {cr : CurrentRequest} (hm : s.masterOf p (sourceOf f) = some m) (he : s.masters[m] = some e)
    (busy : e.phase ≠ .idle) (request : e.request = some cr) :
    takeQueued p f k b s = refuseAtDoor p f .busy (.busy e.phase cr) s := by
  simp only [takeQueued, hm, he, if_neg busy, request]

theorem takeQueued_of_idle (hm : s.masterOf p (sourceOf f) = some m) (he : s.masters[m] = some e)
    (idle : e.phase = .idle) : takeQueued p f k b s = acceptRequest m p f k b s := by
  simp only [takeQueued, hm, he, if_pos idle]

theorem takeQueued_of_full (hm : s.masterOf p (sourceOf f) = none) (full : s.freeMaster = none) :
    takeQueued p f k b s = refuseAtDoor p f .noMasterSlot .kindAlone s := by
  simp only [takeQueued, hm, full]

theorem takeQueued_of_new (hm : s.masterOf p (sourceOf f) = none) (free : s.freeMaster = some m) :
    takeQueued p f k b s = acceptRequest m p f k b (s.putMaster m (some
      { port := p, addr := sourceOf f, phase := .idle, held := 0, request := none, awaited := none })) := by
  simp only [takeQueued, hm, free]

theorem State.freeMaster_none : s.freeMaster = none ↔ ∀ m : MasterIndex, (s.masters[m]).isSome = true := by
  rw [State.freeMaster, find_finRange_none]
  exact forall_congr' fun m => by cases s.masters[m] <;> simp

theorem State.freeMaster_eq :
    s.freeMaster = some m ↔ s.masters[m] = none ∧ ∀ j : MasterIndex, j < m → (s.masters[j]).isSome = true := by
  rw [State.freeMaster, find_finRange_lowest]
  exact and_congr (by simp) (forall_congr' fun j => imp_congr_right fun _ => by cases s.masters[j] <;> simp)

theorem acceptRequest_eq (he : s.masters[m] = some e) :
    acceptRequest m p f k b s =
      { s with
        masters := s.masters.set m (some { e with phase := .queued, request := some ⟨k, tagOf f⟩ })
        admission :=
          { s.admission with
            queue := s.admission.queue ++ [{ master := m, port := p, addr := sourceOf f, body := b }] } } := by
  have hm : s.masters[m.val] = some e := he
  simp [acceptRequest, State.modMaster, hm]

theorem acceptRequest_new (p' : Port) :
    acceptRequest m p f k b (s.putMaster m (some
        { port := p', addr := sourceOf f, phase := .idle, held := 0, request := none, awaited := none })) =
      { s with
        masters := s.masters.set m (some
          { port := p', addr := sourceOf f, phase := .queued, held := 0, request := some ⟨k, tagOf f⟩,
            awaited := none })
        admission :=
          { s.admission with
            queue := s.admission.queue ++ [{ master := m, port := p, addr := sourceOf f, body := b }] } } := by
  simp [acceptRequest, State.modMaster, State.putMaster]

end Queued

end Door

/-- Settles O35: the codes kind by kind, then the checks in their order. -/
theorem doorRefusesInOrder : Obligations.DoorRefusesInOrder := by
  refine ⟨⟨fun n k => requestKindOf_iff.trans (by cases k <;> rfl), fun k => by cases k <;> exact ⟨rfl, rfl⟩⟩, ?_⟩
  intro s p f refused
  have told : ∀ st body, refuseAtDoor p f st body s = refused st body := fun st body => refuseAtDoor_eq st body
  refine ⟨fun settling => ?_, fun past notDue => ?_⟩
  · rw [takeRequest_of_settling (by simpa [State.settling] using settling), told]
  have settled : s.settling = false := State.settling_eq_false past notDue
  refine ⟨fun none => by rw [takeRequest_of_no_kind settled none, told], fun k kind => ?_⟩
  refine ⟨fun bad => by rw [takeRequest_of_bad_length settled kind bad, told], fun length => ⟨?_, ?_⟩⟩
  · intro notClaim notRelease notQuery off
    rw [takeRequest_of_not_admin settled kind length
      (k.administrator_iff.2 ⟨notClaim, notRelease, notQuery⟩) off, told]
  · intro queues
    have allowed : k.administrator = true → p = s.straps.adm := by
      rw [RequestKind.administrator_iff]
      rintro ⟨notClaim, notRelease, _⟩
      rcases queues with h | h | h
      · exact absurd h notClaim
      · exact absurd h notRelease
      · exact h.1
    obtain ⟨b, hb⟩ : ∃ b, decodeBody k f = .queued b := by
      rcases queues with rfl | rfl | h
      · exact ⟨_, rfl⟩
      · exact ⟨_, rfl⟩
      · exact decodeBody_queued f h.2
    rw [takeRequest_of_queued settled kind length allowed hb]
    refine ⟨fun m e cr he hp ha unique busy request => ?_, fun full => ?_⟩
    · rw [takeQueued_of_busy (State.masterOf_eq he hp ha unique) he busy request, told]
    · have unknown : s.masterOf p (sourceOf f) = none := State.masterOf_none.2 fun j e he => by
        obtain ⟨e', he', other⟩ := full j
        cases he.symm.trans he'
        exact other
      have taken : s.freeMaster = none := State.freeMaster_none.2 fun j => by
        obtain ⟨e, he, _⟩ := full j
        rw [he]; rfl
      rw [takeQueued_of_full unknown taken, told]

/-- Settles O36: the body kind by kind, then the two entries a request can be accepted in. -/
theorem acceptedRequestsJoinTheQueue : Obligations.AcceptedRequestsJoinTheQueue := by
  refine ⟨fun f => ⟨rfl, rfl, rfl, rfl, rfl, rfl, rfl, rfl, rfl⟩, ?_⟩
  intro s p f k body m past notDue kind length may hb joined
  have settled : s.settling = false := State.settling_eq_false past notDue
  have allowed : k.administrator = true → p = s.straps.adm := by
    rw [RequestKind.administrator_iff]
    rintro ⟨notClaim, notRelease, _⟩
    exact (may.resolve_left notClaim).resolve_left notRelease
  rw [takeRequest_of_queued settled kind length allowed hb]
  refine ⟨fun e he hp ha unique idle awaited => ?_, fun free lower unknown => ?_⟩
  · rw [takeQueued_of_idle (State.masterOf_eq he hp ha unique) he idle, acceptRequest_eq he]
    obtain ⟨port, addr, phase, held, request, waits⟩ := e
    cases hp; cases ha; cases awaited
    rfl
  · rw [takeQueued_of_new (State.masterOf_none.2 unknown) (State.freeMaster_eq.2 ⟨free, lower⟩), acceptRequest_new]

/-! ### The way to the door (R100, R122, R124) -/

theorem isDeviceKind_iff (n : Nat) : isDeviceKind n = true ↔ n = 0x80 ∨ n = 0x81 ∨ n = 0x82 := by
  simp [isDeviceKind, or_assoc]

theorem takeControl_of_discarded {s : State} {p : Port} {f : Frame}
    (h : sourceOf f = s.deviceAddr ∨ isGroup (sourceOf f) = true ∨ isDeviceKind (kindOf f) = true) :
    takeControl p f s = s := if_pos h

theorem takeControl_of_request {s : State} {p : Port} {f : Frame}
    (h : ¬(sourceOf f = s.deviceAddr ∨ isGroup (sourceOf f) = true ∨ isDeviceKind (kindOf f) = true)) :
    takeControl p f s = takeRequest p f s := if_neg h

/-- A control frame to the device or to all is learned and taken by the conversation unit (R122, R124). -/
theorem takeFrame_of_control {s : State} {p : Port} {f : Frame} (h : isErrorFrame f = false)
    (ht : etherTypeOf f = 0x9A72) (hd : destinationOf f = s.deviceAddr ∨ destinationOf f = BitVec.allOnes 48) :
    takeFrame p f s = takeControl p f (learn p (sourceOf f) s) := by
  have hc : s.classify f = .control := by
    unfold State.classify
    rcases hd with hd | hd <;> simp [h, ht, hd, controlType, broadcast]
  simp only [takeFrame, hc]

/-- A number read from its most significant byte on. -/
theorem fieldAt_eq (f : Frame) (o n : Nat) :
    fieldAt f o n = ((f.drop o).take n).foldl (fun v x => 256 * v + x.toNat) 0 := by
  unfold fieldAt
  congr 1
  funext v x
  rw [Nat.mul_comm]

/-- Settles O37: the fields of the header, then the frame on its way to the door. -/
theorem controlFramesAreLearnedThenTaken : Obligations.ControlFramesAreLearnedThenTaken := by
  constructor
  · intro f number
    have field : ∀ o n, fieldAt f o n = number o n := fieldAt_eq f
    refine ⟨field, ?_, ?_, field .., field .., ?_, field .., ?_, ?_, ?_⟩ <;> simp only [← field] <;> rfl
  · intro s p f released up good long short type dest t
    have sound : isErrorFrame f = false := isErrorFrame_eq_false_iff.2 ⟨good, long, short⟩
    have quiet : Quiet s t := Quiet.learn p (sourceOf f) s
    have device : t.deviceAddr = s.deviceAddr := by unfold State.deviceAddr; rw [quiet.straps]
    have taken : exec (.frameReceived p f) s = .next (settleEgress (takeControl p f t)) := by
      rw [exec_frameReceived_of_up released up, takeFrame_of_control sound type dest]
    constructor
    · intro discarded
      rw [taken, takeControl_of_discarded (by rwa [device, isDeviceKind_iff])]
    · intro notOwn notGroup notReply notNotice notBeacon
      constructor
      · rw [taken, takeControl_of_request]
        rw [device, isDeviceKind_iff]
        simp [notOwn, notGroup, notReply, notNotice, notBeacon]
      · intro k body past notDue kind length may hb
        have settled : t.settling = false := by
          rw [quiet.settling]
          exact State.settling_eq_false past notDue
        refine takeRequest_of_immediate settled kind length (fun admin => ?_) hb
        rw [quiet.straps]
        exact may.resolve_left (k.administrator_iff.1 admin).2.2

end Sys2Proof.Machine

/-! SUPPORT. Learning (chapter 09) and the administrator's requests that act at once or at the switch (chapter 10). -/

namespace Sys2Proof.Machine

/-! ### Learning (R168, R169) -/

section Learning

variable {s : State} {p : Port} {a : Addr} {j : Place} {e : Station}

theorem State.putStation_eq (s : State) (j : Place) (x : Option Station) :
    s.putStation j x = { s with stations := s.stations.set j x } := rfl

theorem State.lowestPlace_free :
    s.lowestPlace Option.isNone = some j ↔
      s.stations[j] = none ∧ ∀ k : Place, k < j → (s.stations[k]).isSome = true := by
  rw [State.lowestPlace, find_finRange_lowest]
  exact and_congr (by simp) (forall_congr' fun k => imp_congr_right fun _ => by cases s.stations[k] <;> simp)

theorem State.lowestPlace_full :
    s.lowestPlace Option.isNone = none ↔ ∀ k : Place, (s.stations[k]).isSome = true := by
  rw [State.lowestPlace, find_finRange_none]
  exact forall_congr' fun k => by cases s.stations[k] <;> simp

theorem learn_of_not_station (h : isGroup a = true ∨ a = s.deviceAddr) : learn p a s = s := if_pos h

variable (single : isGroup a = false) (other : a ≠ s.deviceAddr)
include single other

theorem learn_of_unknown (unknown : s.placeOf a = none) (free : s.lowestPlace Option.isNone = some j) :
    learn p a s = s.putStation j (some { addr := a, port := p, seen := true, pins := 0 }) := by
  simp [learn, single, other, unknown, free]

theorem learn_of_unknown_full (unknown : s.placeOf a = none) (full : s.lowestPlace Option.isNone = none) :
    learn p a s = s := by
  simp [learn, single, other, unknown, full]

theorem learn_of_known (place : s.placeOf a = some j) (entry : s.stations[j] = some e) :
    learn p a s =
      if e.port ≠ p ∧ 0 < e.pins then stationMoved a (s.putStation j (some { e with port := p, seen := true }))
      else s.putStation j (some { e with port := p, seen := true }) := by
  have notSkipped : ¬(isGroup a = true ∨ a = s.deviceAddr) := by simp [single, other]
  simp only [learn, if_neg notSkipped, place, entry]

end Learning

/-- Settles O15, row by row of the table of R168. -/
theorem learningFollowsItsTable : Obligations.LearningFollowsItsTable := by
  intro p a s
  refine ⟨learn_of_not_station, fun single other => ⟨fun unknown => ?_, fun j e he ha unique => ?_⟩⟩
  · have noPlace : s.placeOf a = none := State.placeOf_none.2 unknown
    exact ⟨fun j free lower => learn_of_unknown single other noPlace (State.lowestPlace_free.2 ⟨free, lower⟩),
      fun full => learn_of_unknown_full single other noPlace (State.lowestPlace_full.2 full)⟩
  · rw [learn_of_known single other (State.placeOf_eq he ha unique) he]
    refine ⟨fun stays => if_neg fun moved => ?_, fun moved pinned => if_pos ⟨moved, pinned⟩⟩
    rcases stays with here | unpinned
    · exact moved.1 here
    · exact moved.2.ne' unpinned

/-! ### Answers at the switch (R107, R109) -/

/-- The master waits in EXECUTING for the answer named. -/
theorem deferMaster_eq {s : State} {m : MasterIndex} {e : Master} (he : s.masters[m] = some e) (a : Awaited) :
    deferMaster m a s = s.withMaster m (some { e with phase := .executing, awaited := some a }) := by
  have hm : s.masters[m.val] = some e := he
  simp [deferMaster, State.modMaster, State.withMaster, hm]

theorem deferToSwitch_eq {s : State} {m : MasterIndex} {e : Master} (he : s.masters[m] = some e) (a : Awaited) :
    deferToSwitch m a s =
      { s with switchAnswers := s.switchAnswers ++ [m] }.withMaster m
        (some { e with phase := .executing, awaited := some a }) := 
  deferMaster_eq (s := { s with switchAnswers := s.switchAnswers ++ [m] }) he a

/-! ### The administrator's requests (R179, R182, R183) -/

section Administration

variable {s : State} {rq : Request} {e : Master} {cr : CurrentRequest} (takes : s.Takes rq e cr)
include takes

theorem exec_hold_of_takes (body : rq.body = .hold) :
    exec .hold s = .next (settleEgress (setHeld rq.master true s)) := by
  simp only [exec, execHold, takes.headRequest_eq, body]

theorem exec_resume_of_takes (body : rq.body = .resume) :
    exec .resume s = .next (settleEgress (setHeld rq.master false s)) := by
  simp only [exec, execResume, takes.headRequest_eq, body]

theorem exec_setAge_of_takes {seconds : Nat} (body : rq.body = .setAge seconds) :
    exec .setAge s = .next (settleEgress (takeSetAge rq.master seconds s)) := by
  simp only [exec, execSetAge, takes.headRequest_eq, body]

theorem exec_setTiming_of_takes {h : Nat} (body : rq.body = .setTiming h) :
    exec .setTiming s = .next (settleEgress (takeSetTiming rq.master h s)) := by
  simp only [exec, execSetTiming, takes.headRequest_eq, body]

theorem setHeld_eq (held : Bool) :
    setHeld rq.master held s =
      ({ s.decided with admission := { s.decided.admission with held := held } }).answered rq.master e cr .ok
        (.heldFlag held) :=
  answerMaster_eq (s := { s.decided with admission := { s.decided.admission with held := held } }) takes.entry
    takes.request .ok (.heldFlag held)

theorem takeSetAge_of_range {seconds : Nat} (h : seconds < 10 ∨ 1000 < seconds) :
    takeSetAge rq.master seconds s = s.decided.answered rq.master e cr .range (.failingField 0) := by
  rw [← takes.answer_decided]
  exact if_pos h

theorem takeSetAge_of_fit {seconds : Nat} (h : ¬(seconds < 10 ∨ 1000 < seconds)) :
    takeSetAge rq.master seconds s =
      ({ s.decided with ageing := { agePeriod := seconds, sweepCount := 0 } }).answered rq.master e cr .ok
        (.age seconds (sweepPeriod s.straps.cyc seconds)) := by
  rw [← answerMaster_eq (s := { s.decided with ageing := { agePeriod := seconds, sweepCount := 0 } }) takes.entry
    takes.request]
  exact if_neg h

theorem takeSetTiming_of_not_held {h : Nat} (held : s.admission.held = false) :
    takeSetTiming rq.master h s = s.decided.answered rq.master e cr .notHeld .kindAlone := by
  rw [← takes.answer_decided]
  simp [takeSetTiming, held, leaveQueue_eq]

variable (held : s.admission.held = true)
include held

theorem takeSetTiming_of_range {h : Nat} (long : 4 < h) :
    takeSetTiming rq.master h s = s.decided.answered rq.master e cr .range (.failingField 0) := by
  rw [← takes.answer_decided]
  simp [takeSetTiming, held, long, leaveQueue_eq]

theorem takeSetTiming_of_in_use {h : Nat} (short : h ≤ 4) (used : s.recordCount ≠ 0 ∨ s.store.changeList ≠ []) :
    takeSetTiming rq.master h s =
      s.decided.answered rq.master e cr .inUse (.timingInUse s.recordCount s.store.changeList.length) := by
  rw [← takes.answer_decided]
  simp only [takeSetTiming, held, Nat.not_lt.2 short, if_pos used, leaveQueue_eq, Bool.not_true, Bool.false_eq_true,
    if_false]

theorem takeSetTiming_of_fit {h : Nat} (short : h ≤ 4) (noRecord : s.recordCount = 0)
    (noLeg : s.store.changeList = []) :
    takeSetTiming rq.master h s =
      ({ s.decided with
          store := { s.store with pendingH := some h }
          switchAnswers := s.switchAnswers ++ [rq.master] }).withMaster rq.master
        (some { e with phase := .executing, awaited := some .timing }) := by
  have unused : ¬(s.recordCount ≠ 0 ∨ s.store.changeList ≠ []) := by simp [noRecord, noLeg]
  simp only [takeSetTiming, held, Nat.not_lt.2 short, if_neg unused, leaveQueue_eq, Bool.not_true, Bool.false_eq_true,
    if_false]
  exact deferToSwitch_eq (s := { s.decided with store := { s.store with pendingH := some h } }) takes.entry .timing

end Administration

theorem sweepPeriod_eq (cyc : Fin 4) (age : Nat) :
    sweepPeriod cyc age = age * 1000000 / [125, 250, 500, 1000][cyc] := by
  fin_cases cyc <;> rfl

/-- Settles O47, request by request. -/
theorem holdResumeAndSetAgeActAtOnce : Obligations.HoldResumeAndSetAgeActAtOnce := by
  intro s rq e cr takes flagged
  refine ⟨fun body => ?_, fun body => ?_, fun seconds body => ⟨fun outside => ?_, fun low high => ?_⟩⟩
  · rw [exec_hold_of_takes takes body, setHeld_eq takes]
  · rw [exec_resume_of_takes takes body, setHeld_eq takes]
  · rw [exec_setAge_of_takes takes body, takeSetAge_of_range takes outside]
  · rw [exec_setAge_of_takes takes body, takeSetAge_of_fit takes (by omega), sweepPeriod_eq]

/-- Settles O49, check by check. -/
theorem setTimingWritesThePendingH : Obligations.SetTimingWritesThePendingH := by
  intro s rq e cr h takes body refused records
  rw [exec_setTiming_of_takes takes body]
  refine ⟨fun notHeld => ?_, fun held long => ?_, fun held short used => ?_, fun held short noRecord noLeg => ?_⟩
  · rw [takeSetTiming_of_not_held takes notHeld]
  · rw [takeSetTiming_of_range takes held long]
  · rw [takeSetTiming_of_in_use takes held short used]
    rfl
  · rw [takeSetTiming_of_fit takes held short noRecord noLeg]

end Sys2Proof.Machine

/-! SUPPORT. The immediate answers (chapter 05): QUERY, READ_CALENDAR and READ_PORT. -/

namespace Sys2Proof.Machine

/-! ### The request taken (assumption 15) -/

section FirstOfItsKind

variable {α : Type} {f : α → Bool} {before after : List α} {x : α}

theorem find?_first (hb : ∀ y ∈ before, f y = false) (hx : f x = true) :
    (before ++ x :: after).find? f = some x := by
  rw [List.find?_append, List.find?_eq_none.2 fun y hy => by simp [hb y hy], List.find?_cons_of_pos hx]
  rfl

theorem eraseP_first (hb : ∀ y ∈ before, f y = false) (hx : f x = true) :
    (before ++ x :: after).eraseP f = before ++ after := by
  rw [List.eraseP_append_right _ fun y hy => by simp [hb y hy], List.eraseP_cons_of_pos hx]

end FirstOfItsKind

theorem isQuery_eq_false {rq : ImmediateRequest} (h : ∀ n c p, rq.body ≠ .query n c p) : isQuery rq = false := by
  unfold isQuery
  split
  · next heq => exact absurd heq (h _ _ _)
  · rfl
  · rfl

theorem isReadCalendar_eq_false {rq : ImmediateRequest} (h : ∀ p f, rq.body ≠ .readCalendar p f) :
    isReadCalendar rq = false := by
  unfold isReadCalendar
  split
  · next heq => exact absurd heq (h _ _)
  · rfl
  · rfl

theorem isReadPort_eq_false {rq : ImmediateRequest} (h : ∀ p c, rq.body ≠ .readPort p c) : isReadPort rq = false := by
  unfold isReadPort
  split
  · next heq => exact absurd heq (h _ _)
  · rfl
  · rfl

section Taken

variable {s : State} {before after : List ImmediateRequest} {rq : ImmediateRequest}
  (released : s.resetAsserted = false) (inbox : s.inbox = before ++ rq :: after)
include released inbox

theorem exec_query_of_first {n part : Nat} {clear : EventFlags} (first : ∀ x ∈ before, ∀ n c p, x.body ≠ .query n c p)
    (body : rq.body = .query n clear part) :
    exec .query s = .next (settleEgress (answerQuery rq n clear part { s with inbox := before ++ after })) := by
  have others : ∀ x ∈ before, isQuery x = false := fun x hx => isQuery_eq_false (first x hx)
  have this : isQuery rq = true := by simp only [isQuery, body]
  simp only [exec, execQuery, released, inbox, find?_first others this, body, State.withoutFirst,
    eraseP_first others this, Bool.false_eq_true, if_false]

theorem exec_readCalendar_of_first {port entry : Nat} (first : ∀ x ∈ before, ∀ p f, x.body ≠ .readCalendar p f)
    (body : rq.body = .readCalendar port entry) :
    exec .readCalendar s =
      .next (settleEgress (answerReadCalendar rq port entry { s with inbox := before ++ after })) := by
  have others : ∀ x ∈ before, isReadCalendar x = false := fun x hx => isReadCalendar_eq_false (first x hx)
  have this : isReadCalendar rq = true := by simp only [isReadCalendar, body]
  simp only [exec, execReadCalendar, released, inbox, find?_first others this, body, State.withoutFirst,
    eraseP_first others this, Bool.false_eq_true, if_false]

theorem exec_readPort_of_first {port : Nat} {clear : Bool} (first : ∀ x ∈ before, ∀ p c, x.body ≠ .readPort p c)
    (body : rq.body = .readPort port clear) :
    exec .readPort s = .next (settleEgress (answerReadPort rq port clear { s with inbox := before ++ after })) := by
  have others : ∀ x ∈ before, isReadPort x = false := fun x hx => isReadPort_eq_false (first x hx)
  have this : isReadPort rq = true := by simp only [isReadPort, body]
  simp only [exec, execReadPort, released, inbox, find?_first others this, body, State.withoutFirst,
    eraseP_first others this, Bool.false_eq_true, if_false]

end Taken

/-! ### The place of an answer (R104, R105, R116) -/

section Answers

variable {s : State} {rq : ImmediateRequest}

theorem State.nonReplyFree_iff {p : Port} :
    s.nonReplyFree p = true ↔ s.portUp p = true ∧ (s.ports[p]).nonReplies < 8 := by
  simp [State.nonReplyFree]

theorem State.nonReplyFree_eq_false {p : Port} (h : s.portUp p = false ∨ 8 ≤ (s.ports[p]).nonReplies) :
    s.nonReplyFree p = false := by
  rw [Bool.eq_false_iff, Ne, State.nonReplyFree_iff]
  rintro ⟨up, free⟩
  rcases h with down | full
  · rw [down] at up; cases up
  · omega

theorem answerNow_eq (k : RequestKind) (st : Status) (body : AnswerBody) :
    answerNow rq k st body s = s.toldAtDoor rq.port rq.addr (BitVec.ofNat 8 k.code) rq.tag st body := sendNonReply_eq ..

theorem State.toldAtDoor_of_free {p : Port} (free : s.nonReplyFree p = true) (dest : Addr) (kind : Byte)
    (tag : BitVec 16) (st : Status) (body : AnswerBody) :
    s.toldAtDoor p dest kind tag st body =
      s.withControl p { dest := dest, cls := .other, message := .answer kind tag st body } :=
  if_pos (State.nonReplyFree_iff.1 free)

theorem State.toldAtDoor_of_no_place {p : Port} (none : s.nonReplyFree p = false) (dest : Addr) (kind : Byte)
    (tag : BitVec 16) (st : Status) (body : AnswerBody) : s.toldAtDoor p dest kind tag st body = s :=
  if_neg fun h => by rw [State.nonReplyFree_iff.2 h] at none; cases none

/-! ### QUERY (R42, R104, R191) -/

section Query

variable {n part : Nat} {clear : EventFlags} {i : Slot} {r : Record}

theorem answerQuery_of_no_place (h : s.nonReplyFree rq.port = false) : answerQuery rq n clear part s = s := by
  simp [answerQuery, h]

theorem answerQuery_of_stale (stale : s.resolve n = none) :
    answerQuery rq n clear part s = s.toldAtDoor rq.port rq.addr 0x03#8 rq.tag .noStream (.stream n) := by
  cases free : s.nonReplyFree rq.port with
  | false => rw [answerQuery_of_no_place free, State.toldAtDoor_of_no_place free]
  | true => simp only [answerQuery, free, stale, answerNow_eq, Bool.not_true, Bool.false_eq_true, if_false]; rfl

theorem answerQuery_of_no_part (named : s.resolve n = some i) (hr : s.recordAt i = some r)
    (absent : 2 < part ∨ (part = 2 ∧ r.leg1 = none)) :
    answerQuery rq n clear part s = s.toldAtDoor rq.port rq.addr 0x03#8 rq.tag .range (.failingField 3) := by
  cases free : s.nonReplyFree rq.port with
  | false => rw [answerQuery_of_no_place free, State.toldAtDoor_of_no_place free]
  | true =>
    simp only [answerQuery, free, named, hr, if_pos absent, answerNow_eq, Bool.not_true, Bool.false_eq_true, if_false]
    rfl

/-- The record after the clear set of a QUERY: of its owner alone (R42). -/
def Record.clearedBy (r : Record) (owner : Bool) (clear : EventFlags) : Record :=
  { r with flags := if owner then clearFlags r.flags clear else r.flags }

theorem answerQuery_of_part (free : s.nonReplyFree rq.port = true) (named : s.resolve n = some i)
    (hr : s.recordAt i = some r) (present : ¬(2 < part ∨ (part = 2 ∧ r.leg1 = none))) :
    answerQuery rq n clear part s =
      ({ s with freeIndex := s.freeIndex + 3 }.withRecord i
          (some (r.clearedBy (ownsRecord rq r) clear))).withControl rq.port
        { dest := rq.addr, cls := .other,
          message := .answer 0x03#8 rq.tag .ok
            (queryPart part (ownsRecord rq r && namesFlag clear) n r s.freeIndex) } := by
  have kept : (s.withRecord i (some (r.clearedBy (ownsRecord rq r) clear))) =
      if ownsRecord rq r then s.modRecord i fun r => { r with flags := clearFlags r.flags clear } else s := by
    cases ownsRecord rq r with
    | true =>
      rw [if_pos rfl, State.modRecord_eq_withRecord hr]
      rfl
    | false =>
      have same : s.slots.set i { s.slots[i] with record := some r } = s.slots := by
        refine Vector.ext fun j hj => ?_
        rw [Vector.getElem_set]
        split
        · next h => subst h; rw [← hr]; rfl
        · rfl
      exact congrArg (fun x => { s with slots := x }) same
  simp only [answerQuery, free, named, hr, if_neg present, ← kept, answerNow_eq, Bool.not_true, Bool.false_eq_true,
    if_false]
  exact State.toldAtDoor_of_free
    (s := { s.withRecord i (some (r.clearedBy (ownsRecord rq r) clear)) with freeIndex := s.freeIndex + 3 }) free ..

end Query

end Answers

/-- The flags that stay, one by one (R42). -/
theorem Record.clearedBy_eq (r : Record) (owner : Bool) (clear : EventFlags) :
    r.clearedBy owner clear =
      { r with
        flags :=
          { late := r.flags.late && !(owner && clear.late)
            missed := r.flags.missed && !(owner && clear.missed)
            overflow := r.flags.overflow && !(owner && clear.overflow)
            oversize := r.flags.oversize && !(owner && clear.oversize)
            dormantSeen := r.flags.dormantSeen && !(owner && clear.dormantSeen)
            noticeLost := r.flags.noticeLost && !(owner && clear.noticeLost) } } := by
  cases owner with
  | true => simp [Record.clearedBy, clearFlags]
  | false => simp [Record.clearedBy]

/-- Settles O38: the place, the number, the part, and then the answer with the clear set applied. -/
theorem queryShowsTheRecordThenClears : Obligations.QueryShowsTheRecordThenClears := by
  intro s before after rq n clear part released inbox first body rest told
  rw [exec_query_of_first released inbox first body]
  refine ⟨fun noPlace => ?_, fun stale => ?_, fun i r hr number => ⟨fun absent => ?_, fun up free => ?_⟩⟩
  · rw [answerQuery_of_no_place (s := rest) (State.nonReplyFree_eq_false (s := s) noPlace)]
  · rw [answerQuery_of_stale (s := rest) (State.resolve_none (s := s) |>.2 stale)]
  · have named : s.resolve n = some i := State.resolve_eq.2 ⟨by rw [hr]; rfl, number⟩
    rw [answerQuery_of_no_part (s := rest) named hr absent]
  · intro owner cleared flags answered
    have named : s.resolve n = some i := State.resolve_eq.2 ⟨by rw [hr]; rfl, number⟩
    have place : s.nonReplyFree rq.port = true := State.nonReplyFree_iff.2 ⟨up, free⟩
    have ok : ∀ answer, queryPart part (ownsRecord rq r && namesFlag clear) n r s.freeIndex = answer →
        ¬(2 < part ∨ (part = 2 ∧ r.leg1 = none)) → answerQuery rq n clear part rest = answered answer := by
      intro answer shown present
      rw [answerQuery_of_part (s := rest) place named hr present, Record.clearedBy_eq, ← shown]
      rfl
    refine ⟨?_, ?_, ?_⟩
    · rintro rfl
      rw [ok _ rfl (by simp)]
      rfl
    · rintro rfl
      rw [ok _ rfl (by simp)]
      rfl
    · rintro l rfl leg
      rw [ok (.queryLeg cleared n r .leg1 l s.freeIndex) (by simp only [queryPart, leg]; rfl) (by simp [leg])]

/-! ### The peak load (R52, R53) -/

section Greatest

variable {α : Type} (f : α → Nat)

theorem le_foldl_max (l : List α) (a : Nat) : a ≤ l.foldl (fun m x => max m (f x)) a := by
  induction l generalizing a with
  | nil => exact le_rfl
  | cons x l ih => exact (le_max_left ..).trans (ih _)

theorem apply_le_foldl_max {l : List α} {x : α} (hx : x ∈ l) (a : Nat) :
    f x ≤ l.foldl (fun m x => max m (f x)) a := by
  induction l generalizing a with
  | nil => cases hx
  | cons y l ih =>
    rcases List.mem_cons.1 hx with rfl | hx
    · exact (le_max_right ..).trans (le_foldl_max f l _)
    · exact ih hx _

theorem foldl_max_attained (l : List α) (a : Nat) :
    l.foldl (fun m x => max m (f x)) a = a ∨ ∃ x ∈ l, l.foldl (fun m x => max m (f x)) a = f x := by
  induction l generalizing a with
  | nil => exact .inl rfl
  | cons y l ih =>
    rw [List.foldl_cons]
    rcases ih (max a (f y)) with h | ⟨x, hx, h⟩
    · rcases max_choice a (f y) with hm | hm
      · exact .inl (h.trans hm)
      · exact .inr ⟨y, List.mem_cons_self, h.trans hm⟩
    · exact .inr ⟨x, List.mem_cons_of_mem _ hx, h⟩

end Greatest

theorem loadOf_eq (ws : List Window) (b : Nat) :
    loadOf ws b =
      ((ws.filter fun w => decide (w.owner ≠ .beacon ∧ b % 2 ^ w.rate = w.phase)).map Window.length).sum := by
  unfold loadOf
  congr 3
  funext w
  rw [Bool.eq_iff_iff]
  simp [Window.reserves, Window.inBaseCycle, occupies]

theorem State.load_le_peakLoad (s : State) (p : Port) {b : Nat} (hb : b < 2 ^ s.time.hExp) :
    loadOf (s.planned p) b ≤ s.peakLoad p ∧ loadOf (s.ports[p]).calendar b ≤ s.peakLoad p :=
  max_le_iff.1 (apply_le_foldl_max (fun b => max (loadOf (s.planned p) b) (loadOf (s.ports[p]).calendar b))
    (List.mem_range.2 hb) 0)

theorem State.peakLoad_attained (s : State) (p : Port) :
    ∃ b < 2 ^ s.time.hExp, s.peakLoad p = loadOf (s.planned p) b ∨ s.peakLoad p = loadOf (s.ports[p]).calendar b := by
  rcases foldl_max_attained (fun b => max (loadOf (s.planned p) b) (loadOf (s.ports[p]).calendar b))
    (List.range (2 ^ s.time.hExp)) 0 with none | ⟨b, hb, h⟩
  · refine ⟨0, Nat.two_pow_pos _, .inl (Eq.trans none ?_)⟩
    have low := (s.load_le_peakLoad p (Nat.two_pow_pos s.time.hExp)).1
    exact (Nat.le_zero.1 (low.trans_eq none)).symm
  · refine ⟨b, List.mem_range.1 hb, ?_⟩
    rcases max_choice (loadOf (s.planned p) b) (loadOf (s.ports[p]).calendar b) with hm | hm
    · exact .inl (Eq.trans h hm)
    · exact .inr (Eq.trans h hm)

/-! ### READ_CALENDAR and READ_PORT (R67, R68, R105, R186) -/

section Reads

variable {s : State} {rq : ImmediateRequest} {port : Nat} {p : Port}

theorem answerReadCalendar_of_range {entry : Nat} (h : 7 < port) :
    answerReadCalendar rq port entry s = s.toldAtDoor rq.port rq.addr 0x04#8 rq.tag .range (.failingField 0) := by
  cases free : s.nonReplyFree rq.port with
  | false => rw [State.toldAtDoor_of_no_place free]; simp [answerReadCalendar, free]
  | true => simp only [answerReadCalendar, free, portOfNat_none.2 h, answerNow_eq, Bool.not_true, Bool.false_eq_true,
      if_false]; rfl

theorem answerReadCalendar_of_port {entry : Nat} :
    answerReadCalendar rq p.val entry s =
      s.toldAtDoor rq.port rq.addr 0x04#8 rq.tag .ok (.calendar (s.calendarReading p entry)) := by
  cases free : s.nonReplyFree rq.port with
  | false => rw [State.toldAtDoor_of_no_place free]; simp [answerReadCalendar, free]
  | true => simp only [answerReadCalendar, free, portOfNat_eq, answerNow_eq, Bool.not_true, Bool.false_eq_true,
      if_false]; rfl

theorem answerReadPort_of_no_place {clear : Bool} (h : s.nonReplyFree rq.port = false) :
    answerReadPort rq port clear s = s := by
  simp [answerReadPort, h]

theorem answerReadPort_of_range {clear : Bool} (h : 7 < port) :
    answerReadPort rq port clear s = s.toldAtDoor rq.port rq.addr 0x05#8 rq.tag .range (.failingField 0) := by
  cases free : s.nonReplyFree rq.port with
  | false => rw [answerReadPort_of_no_place free, State.toldAtDoor_of_no_place free]
  | true => simp only [answerReadPort, free, portOfNat_none.2 h, answerNow_eq, Bool.not_true, Bool.false_eq_true,
      if_false]; rfl

theorem answerReadPort_of_port {clear : Bool} (free : s.nonReplyFree rq.port = true) :
    answerReadPort rq p.val clear s =
      (if clear then s.withPort p { s.ports[p] with receiveErrors := 0, strays := 0, openDrops := 0 }
        else s).toldAtDoor rq.port rq.addr 0x05#8 rq.tag .ok (.portRead (s.portReading p)) := by
  simp only [answerReadPort, free, portOfNat_eq, answerNow_eq, Bool.not_true, Bool.false_eq_true, if_false,
    State.modPort_eq_withPort]
  rfl

end Reads

/-- The snapshot, with its entries written out (R67, R68, R191). -/
theorem State.calendarReading_eq {s : State} {installed : Window → CalendarEntry} {staged : StagedLeg → CalendarEntry}
    (hi : ∀ w, s.installedEntry w = installed w) (hg : ∀ e, s.stagedEntry e = staged e) (p : Port) (entry : Nat) :
    s.calendarReading p entry =
      { port := p, hExp := s.time.hExp, pendingH := s.store.pendingH, freePlaces := 16 - s.store.changeList.length
        generation := s.store.generation, cap := s.cycleTicks * (s.ports[p]).policy.share / 64
        peak := s.peakLoad p, installed := (s.ports[p]).calendar.length
        staged := (s.store.changeList.filter fun e => e.egress == p).length, first := entry
        entries :=
          (((s.ports[p]).calendar.map installed ++
            (s.store.changeList.filter fun e => e.egress == p).map staged).drop entry).take 2 } := by
  simp only [State.calendarReading, State.calendarEntries, State.stagedFor, funext hi, funext hg]
  rfl

/-- Settles O39: the peak load from its maximum, then the answer and the entries of its list. -/
theorem readCalendarShowsTheCalendar : Obligations.ReadCalendarShowsTheCalendar := by
  constructor
  · intro s p load
    have same : ∀ ws b, loadOf ws b = load ws b := loadOf_eq
    refine ⟨same, fun b hb => ?_, ?_⟩
    · rw [← same, ← same]
      exact s.load_le_peakLoad p hb
    · obtain ⟨b, hb, h⟩ := s.peakLoad_attained p
      exact ⟨b, hb, by rwa [same, same] at h⟩
  · intro s before after rq port entry released inbox first body rest numberOf installed staged told
    rw [exec_readCalendar_of_first released inbox first body]
    refine ⟨fun range => by rw [answerReadCalendar_of_range range], ?_⟩
    rintro p rfl
    rw [answerReadCalendar_of_port, State.calendarReading_eq (installed := installed) (staged := staged)]
    · rfl
    · rintro ⟨_, _, _, _, owner, _⟩
      cases owner <;> rfl
    · exact fun _ => rfl

/-- Settles O40: the place, the port, and the counters read before they are cleared. -/
theorem readPortShowsThenClearsTheCounters : Obligations.ReadPortShowsThenClearsTheCounters := by
  intro s before after rq port clear released inbox first body rest told
  rw [exec_readPort_of_first released inbox first body]
  refine ⟨fun noPlace => ?_, fun range => by rw [answerReadPort_of_range range], ?_⟩
  · rw [answerReadPort_of_no_place (s := rest) (State.nonReplyFree_eq_false (s := s) noPlace)]
  · rintro p rfl up free
    rw [answerReadPort_of_port (s := rest) (State.nonReplyFree_iff (s := s) |>.2 ⟨up, free⟩)]
    rfl

end Sys2Proof.Machine

/-! SUPPORT. The decision of a CLAIM (chapter 04), check by check, and what a refused or waiting claim leaves. -/

namespace Sys2Proof.Machine

section Checks

variable {s : State} {rq : Request} {c : ClaimFields}

/-! ### The ranges (R76) and the destination (R172) -/

theorem ClaimFields.exact_iff : c.exact = true ↔ c.mode = 1 := by simp [ClaimFields.exact]

theorem claimRange_eq (h cycleTicks : Nat) (c : ClaimFields) :
    claimRange h cycleTicks c =
      if c.dest.getLsbD 40 = true then some 0 else if c.mode ≠ 0 ∧ c.mode ≠ 1 then some 6
      else if h < c.rate then some 7 else if c.mode = 1 ∧ 2 ^ c.rate ≤ c.phase then some 9
      else if c.mode = 1 ∧ (c.offset % 16 ≠ 0 ∨ cycleTicks ≤ c.offset) then some 20
      else if c.size0 < 1 ∨ 1522 < c.size0 then some 12 else if c.frames0 < 1 ∨ 8 < c.frames0 then some 10
      else if c.returnLeg = true ∧ (c.size1 < 1 ∨ 1522 < c.size1) then some 14
      else if c.returnLeg = true ∧ (c.frames1 < 1 ∨ 8 < c.frames1) then some 11
      else if c.returnLeg = true ∧ 65520 < c.turnaround then some 16 else none := by
  have mode : (1 < c.mode) = (c.mode ≠ 0 ∧ c.mode ≠ 1) := propext (by omega)
  simp only [claimRange, isGroup, ClaimFields.exact_iff, mode, Nat.lt_one_iff]

theorem State.lookup_self {a : Addr} {p : Port} : s.lookup a a p = some p := if_pos rfl

theorem State.lookup_none {dest source : Addr} {p : Port} (other : dest ≠ source)
    (unknown : s.placeOf dest = none) : s.lookup dest source p = none := by
  simp [State.lookup, other, unknown]

theorem State.lookup_of_known {dest source : Addr} {p : Port} {j : Place} {e : Station} (other : dest ≠ source)
    (place : s.placeOf dest = some j) (entry : s.stations[j] = some e) : s.lookup dest source p = some e.port := by
  rw [State.lookup, if_neg other, place]
  exact congrArg (Option.map Station.port) entry

/-! ### Steps 1 to 4 of R77 -/

theorem State.mayAsk_iff {p : Port} :
    s.mayAsk p = true ↔ (s.ports[p]).policy.masterCapable = true ∨ p = s.straps.adm := by
  simp [State.mayAsk]

theorem State.decideClaim_of_held (h : s.admission.held = true ∨ s.store.pendingH.isSome = true) :
    s.decideClaim rq c = .refuse .held .kindAlone := if_pos (by rwa [Bool.or_eq_true])

section Permitted

variable (notHeld : ¬(s.admission.held = true ∨ s.store.pendingH.isSome = true))
include notHeld

theorem State.decideClaim_of_not_permitted (h : ¬s.mayAsk rq.port = true) :
    s.decideClaim rq c = .refuse .notPermitted .kindAlone := by
  have free : ¬(s.admission.held || s.store.pendingH.isSome) = true := by rwa [Bool.or_eq_true]
  rw [State.decideClaim, if_neg free, if_pos (by simp [h])]

variable (permitted : s.mayAsk rq.port = true)
include permitted

theorem State.decideClaim_of_range {k : Nat} (h : claimRange s.time.hExp s.cycleTicks c = some k) :
    s.decideClaim rq c = .refuse .range (.failingField k) := by
  have free : ¬(s.admission.held || s.store.pendingH.isSome) = true := by rwa [Bool.or_eq_true]
  simp only [State.decideClaim, if_neg free, permitted, h, Bool.not_true, Bool.false_eq_true, if_false]

variable (range : claimRange s.time.hExp s.cycleTicks c = none)
include range

theorem State.decideClaim_of_unknown (h : s.lookup c.dest rq.addr rq.port = none) :
    s.decideClaim rq c = .refuse .unknownDest .kindAlone := by
  have free : ¬(s.admission.held || s.store.pendingH.isSome) = true := by rwa [Bool.or_eq_true]
  simp only [State.decideClaim, if_neg free, permitted, range, h, Bool.not_true, Bool.false_eq_true, if_false]

theorem State.decideClaim_of_known {q : Port} (h : s.lookup c.dest rq.addr rq.port = some q) :
    s.decideClaim rq c = if q = rq.port then .refuse .samePort .kindAlone else s.decidePorts rq c q := by
  have free : ¬(s.admission.held || s.store.pendingH.isSome) = true := by rwa [Bool.or_eq_true]
  simp only [State.decideClaim, if_neg free, permitted, range, h, Bool.not_true, Bool.false_eq_true, if_false]

end Permitted

/-! ### Step 5 of R77: the egress ports (R78) -/

theorem State.portUp_eq_false_iff {p : Port} : s.portUp p = false ↔ s.portSpeed p = none := by
  simp [State.portUp]

theorem State.decidePorts_of_down {q : Port}
    (h : s.portUp q = false ∨ (c.returnLeg = true ∧ s.portUp rq.port = false)) :
    s.decidePorts rq c q = .refuse .portDown .kindAlone := by
  simp only [State.portUp_eq_false_iff] at h
  unfold State.decidePorts
  split
  · rfl
  · next sp up =>
    obtain ⟨back, down⟩ := h.resolve_left (by simp [up])
    simp only [back, down, if_true]

/-- The plan of the return leg, when one is claimed. -/
def State.returnPlan (s : State) (rq : Request) (c : ClaimFields) (sp : Speed) : Option LegPlan :=
  if c.returnLeg then some (s.legPlan rq.port sp c.frames1 c.size1) else none

theorem State.decidePorts_of_up {q : Port} {t0 t1 : Speed} (h0 : s.portSpeed q = some t0)
    (h1 : c.returnLeg = true → s.portSpeed rq.port = some t1) :
    s.decidePorts rq c q = s.decideRoom rq c (s.legPlan q t0 c.frames0 c.size0) (s.returnPlan rq c t1) := by
  simp only [State.decidePorts, h0, State.returnPlan]
  split
  · next back => simp only [h1 back]
  · rfl

/-! ### Steps 6 and 7 of R77: QUOTA and TABLE_FULL -/

section Room

variable {l0 : LegPlan} {ret : Option LegPlan} {e : Master} (entry : s.masters[rq.master] = some e)
include entry

theorem State.heldCount_eq : s.heldCount rq.master = e.held := by
  rw [State.heldCount, entry]
  rfl

theorem State.decideRoom_of_quota (h : (s.ports[rq.port]).policy.quota ≤ e.held) :
    s.decideRoom rq c l0 ret = .refuse .quota (.quota e.held (s.ports[rq.port]).policy.quota) := by
  rw [State.decideRoom, State.heldCount_eq entry, if_pos h]

variable (below : e.held < (s.ports[rq.port]).policy.quota)
include below

theorem State.decideRoom_of_full (h : s.freeSlot = none) :
    s.decideRoom rq c l0 ret = .refuse .tableFull .kindAlone := by
  rw [State.decideRoom, State.heldCount_eq entry, if_neg (Nat.not_le.2 below), h]

theorem State.decideRoom_of_slot {i : Slot} (h : s.freeSlot = some i) :
    s.decideRoom rq c l0 ret = s.decidePlace c i l0 ret := by
  rw [State.decideRoom, State.heldCount_eq entry, if_neg (Nat.not_le.2 below), h]

end Room

theorem State.freeSlot_none : s.freeSlot = none ↔ ∀ i : Slot, (s.recordAt i).isSome = true := by
  rw [State.freeSlot, find_finRange_none]
  exact forall_congr' fun i => by cases s.recordAt i <;> simp

theorem State.freeSlot_of_free {i : Slot} (h : s.recordAt i = none) : ∃ j, s.freeSlot = some j := by
  cases hf : s.freeSlot with
  | some j => exact ⟨j, rfl⟩
  | none =>
    have full := State.freeSlot_none.1 hf i
    rw [h] at full
    cases full

/-! ### Steps 8 and 9 of R77: the lengths, the wait for room, and the place -/

section Place

variable {i : Slot} {l0 : LegPlan} {ret : Option LegPlan}

theorem State.decidePlace_of_long (long : l0.cap < l0.length ∨ (ret.any fun l => l.cap < l.length) = true) :
    s.decidePlace c i l0 ret = .refuse .tooLong (planLengths l0 ret) := if_pos long

variable (short : ¬(l0.cap < l0.length ∨ (ret.any fun l => l.cap < l.length) = true))
include short

theorem State.decidePlace_of_past_end (past : c.mode = 1 ∧ s.cycleTicks < c.offset + l0.length) :
    s.decidePlace c i l0 ret = .refuse .range (.failingField 20) := by
  rw [State.decidePlace, if_neg short, if_pos (by rwa [ClaimFields.exact_iff])]

variable (inside : ¬(c.mode = 1 ∧ s.cycleTicks < c.offset + l0.length))
include inside

theorem State.decidePlace_of_no_places (full : s.freePlaces < c.legCount) : s.decidePlace c i l0 ret = .wait := by
  rw [State.decidePlace, if_neg short, if_neg (by rwa [ClaimFields.exact_iff]), if_pos full]

variable (places : ¬s.freePlaces < c.legCount)
include places

theorem State.decidePlace_of_no_room (h : s.placeClaim c l0 ret = none) :
    s.decidePlace c i l0 ret = .refuse .noRoom (planLengths l0 ret) := by
  rw [State.decidePlace, if_neg short, if_neg (by rwa [ClaimFields.exact_iff]), if_neg places, h]

theorem State.decidePlace_of_found {place : Placement} (h : s.placeClaim c l0 ret = some place) :
    s.decidePlace c i l0 ret = .grant i l0 ret place := by
  rw [State.decidePlace, if_neg short, if_neg (by rwa [ClaimFields.exact_iff]), if_neg places, h]

end Place

theorem State.returnPlan_too_long {sp : Speed} :
    ((s.returnPlan rq c sp).any fun l => l.cap < l.length) = true ↔
      c.returnLeg = true ∧ (s.legPlan rq.port sp c.frames1 c.size1).cap <
        (s.legPlan rq.port sp c.frames1 c.size1).length := by
  unfold State.returnPlan
  by_cases h : c.returnLeg = true <;> simp [h]

theorem planLengths_returnPlan {l0 : LegPlan} {sp : Speed} :
    planLengths l0 (s.returnPlan rq c sp) =
      .lengths l0.length l0.cap (if c.returnLeg then
        some ((s.legPlan rq.port sp c.frames1 c.size1).length, (s.legPlan rq.port sp c.frames1 c.size1).cap)
        else none) := by
  unfold State.returnPlan planLengths
  by_cases h : c.returnLeg = true <;> simp [h]

end Checks

/-- Settles O41: the checks in their order, each by its own lemma; then the ranges and the lookup. -/
theorem claimChecksAreTakenInOrder : Obligations.ClaimChecksAreTakenInOrder := by
  intro s rq c held permitted
  refine ⟨State.decideClaim_of_held, fun notHeld not => ?_, fun notHeld may => ⟨fun k range => ?_, fun range => ?_⟩,
    claimRange_eq .., ?_, ?_, ?_⟩
  · exact State.decideClaim_of_not_permitted notHeld (mt State.mayAsk_iff.1 not)
  · exact State.decideClaim_of_range notHeld (State.mayAsk_iff.2 may) range
  · have known := fun q => State.decideClaim_of_known (q := q) notHeld (State.mayAsk_iff.2 may) range
    refine ⟨State.decideClaim_of_unknown notHeld (State.mayAsk_iff.2 may) range,
      fun same => (known _ same).trans (if_pos rfl), fun q found other => ?_⟩
    rw [known q found, if_neg other]
    refine ⟨State.decidePorts_of_down, ?_⟩
    intro t0 t1 e up0 entry up1 w0 w1 cap0 cap1 lengths tooLong pastEnd noPlaces found
    rw [State.decidePorts_of_up up0 up1]
    refine ⟨State.decideRoom_of_quota entry, fun below => ⟨fun full => ?_, fun i free => ?_⟩⟩
    · exact State.decideRoom_of_full entry below (State.freeSlot_none.2 full)
    obtain ⟨j, hj⟩ := State.freeSlot_of_free free
    rw [State.decideRoom_of_slot entry below hj]
    have long : ((s.legPlan q t0 c.frames0 c.size0).cap < (s.legPlan q t0 c.frames0 c.size0).length ∨
        ((s.returnPlan rq c t1).any fun l => l.cap < l.length) = true) ↔ tooLong :=
      or_congr Iff.rfl State.returnPlan_too_long
    refine ⟨fun h => ?_, fun h h' => ?_, fun h h' h'' => ?_, fun h h' h'' none => ?_, fun h h' h'' lower place hp => ?_⟩
    · rw [State.decidePlace_of_long (long.2 h), planLengths_returnPlan]
      rfl
    · exact State.decidePlace_of_past_end (mt long.1 h) h'
    · exact State.decidePlace_of_no_places (mt long.1 h) h' h''
    · rw [State.decidePlace_of_no_room (mt long.1 h) h' h'' none, planLengths_returnPlan]
      rfl
    · have lowest : s.freeSlot = some i := State.freeSlot_eq.2 ⟨free, lower⟩
      cases hj.symm.trans lowest
      exact State.decidePlace_of_found (mt long.1 h) h' h'' hp
  · rintro same
    rw [same]
    exact State.lookup_self
  · exact fun other unknown => State.lookup_none other (State.placeOf_none.2 unknown)
  · intro other distinct j e entry addr
    refine State.lookup_of_known other (State.placeOf_eq entry addr fun k e' hk hk' => ?_) entry
    exact distinct k j e' e hk entry (hk'.trans addr.symm)

/-! ### What a refused and a waiting claim leave (R73, R75) -/

section Effects

variable {s : State} {rq : Request} {c : ClaimFields} {e : Master} {cr : CurrentRequest}

theorem exec_claim_of_takes (takes : s.Takes rq e cr) (body : rq.body = .claim c) :
    exec .claim s = .next (settleEgress (takeClaim rq c s)) := by
  simp only [exec, execClaim, takes.headRequest_eq, body]

/-- A claim that waited is taken as if it came now (R75). -/
theorem exec_takeUp_of_takes (takes : s.Takes rq e cr) (body : rq.body = .claim c) :
    exec .takeUpWaitingClaim { s with admission := { s.admission with waiting := .takeUp } } =
      .next (settleEgress (takeClaim rq c s)) := by
  have free : { s.admission with waiting := .none } = s.admission := by rw [← takes.unit_free]
  have released : ¬s.resetAsserted = true := by simp [takes.released]
  simp only [exec, execTakeUpWaitingClaim, if_neg released, takes.head, body, if_true, free]

theorem takeClaim_of_refuse {st : Status} {body : AnswerBody} (h : s.decideClaim rq c = .refuse st body) :
    takeClaim rq c s = answerMaster rq.master st body s.decided := by
  simp only [takeClaim, h, leaveQueue_eq]

theorem takeClaim_of_wait (h : s.decideClaim rq c = .wait) :
    takeClaim rq c s = { s with admission := { s.admission with waiting := .waiting } } := by
  simp only [takeClaim, h]

end Effects

/-- The commands of the admission unit. -/
theorem exec_of_waiting {s : State} (h : s.admission.waiting = .waiting) {c : Instr}
    (hc : c ∈ [Instr.claim, .release, .hold, .resume, .setPortPolicy, .setTiming, .setAge, .clearPort, .clearCell,
      .takeUpWaitingClaim]) : exec c s = .next s := by
  have none : s.headRequest = none := State.headRequest_none (by rw [h]; decide)
  simp only [List.mem_cons, List.not_mem_nil, or_false] at hc
  rcases hc with rfl | rfl | rfl | rfl | rfl | rfl | rfl | rfl | rfl | rfl
  case inr.inr.inr.inr.inr.inr.inr.inr.inr =>
    have notYet : s.admission.waiting ≠ .takeUp := by rw [h]; decide
    simp only [exec, execTakeUpWaitingClaim, if_neg notYet, ite_self]
  all_goals
    simp only [exec, execClaim, execRelease, execHold, execResume, execSetPortPolicy, execSetTiming, execSetAge,
      execClearPort, execClearCell, none]

/-- Settles O42: the refusal is answered as decided, the wait stays until the switch. -/
theorem refusedAndWaitingClaimsChangeNothingElse : Obligations.RefusedAndWaitingClaimsChangeNothingElse := by
  intro s rq c e cr takes isClaim waiting takenUp
  refine ⟨fun st body refused => ?_, fun waits => ?_, fun cmd hc => exec_of_waiting rfl hc, ?_⟩
  · have answer : takeClaim rq c s = s.decided.answered rq.master e cr st body := by
      rw [takeClaim_of_refuse refused, takes.answer_decided]
    exact ⟨by rw [exec_claim_of_takes takes isClaim, answer], by rw [exec_takeUp_of_takes takes isClaim, answer]⟩
  · rw [exec_claim_of_takes takes isClaim, takeClaim_of_wait waits]
  · rw [calendarSwitch_frame]
    rfl

end Sys2Proof.Machine

/-! SUPPORT. Records under the walks over the slots: what a walk leaves of one slot, and the notices, suspensions,
resumptions and frees as equations (chapters 02 and 08). -/

namespace Sys2Proof.Machine

/-! ### A walk that visits a slot -/

section Visit

variable {ι α : Type} {f : ι → State → State} {get : State → ι → α} {R : State → State → Prop}

theorem foldl_related (refl : ∀ s, R s s) (trans : ∀ {s t u}, R s t → R t u → R s u) (step : ∀ j s, R s (f j s))
    (l : List ι) (s : State) : R s (l.foldl (fun t j => f j t) s) := by
  induction l generalizing s with
  | nil => exact refl s
  | cons j l ih => exact trans (step j s) (ih _)

theorem foldl_other (other : ∀ j k s, k ≠ j → get (f j s) k = get s k) {l : List ι} {k : ι} (hk : k ∉ l) (s : State) :
    get (l.foldl (fun t j => f j t) s) k = get s k := by
  induction l generalizing s with
  | nil => rfl
  | cons j l ih =>
    rw [List.mem_cons, not_or] at hk
    exact (ih hk.2 _).trans (other j k s hk.1)

/-- A walk in which each visit changes its own entry alone: entry `i` is as its visit leaves it, which finds it as it
was before the walk; `R` relates what stands before, at, and after the visit. -/
theorem foldl_visit (refl : ∀ s, R s s) (trans : ∀ {s t u}, R s t → R t u → R s u) (step : ∀ j s, R s (f j s))
    (other : ∀ j k s, k ≠ j → get (f j s) k = get s k) {l : List ι} (nodup : l.Nodup) {i : ι} (hi : i ∈ l) (s : State) :
    ∃ u, R s u ∧ get u i = get s i ∧ R (f i u) (l.foldl (fun t j => f j t) s) ∧
      get (l.foldl (fun t j => f j t) s) i = get (f i u) i := by
  obtain ⟨before, after, rfl⟩ := List.append_of_mem hi
  have apart := List.nodup_middle.1 nodup
  rw [List.nodup_cons, List.mem_append, not_or] at apart
  obtain ⟨⟨notBefore, notAfter⟩, _⟩ := apart
  refine ⟨before.foldl (fun t j => f j t) s, foldl_related refl trans step before s, foldl_other other notBefore s,
    ?_, ?_⟩
  · rw [List.foldl_append, List.foldl_cons]
    exact foldl_related refl trans step after _
  · rw [List.foldl_append, List.foldl_cons, foldl_other other notAfter]

end Visit

/-! ### What such a walk keeps -/

/-- `t` comes of `s` by acts on records: no non-reply frame leaves, no window is installed or loses its retiring mark,
and no leg is staged. -/
structure Walked (s t : State) : Prop extends Quiet s t where
  nonReplies : ∀ q : Port, (s.ports[q]).nonReplies ≤ (t.ports[q]).nonReplies
  retired : ∀ q : Port, ∀ w ∈ (t.ports[q]).calendar, ∃ v ∈ (s.ports[q]).calendar,
    v.owner = w.owner ∧ (v.retiring = true → w.retiring = true)
  changeList : ∀ e ∈ t.store.changeList, e ∈ s.store.changeList

namespace Walked

theorem of_ports {s t : State} (h : Quiet s t) (ports : t.ports = s.ports)
    (changeList : ∀ e ∈ t.store.changeList, e ∈ s.store.changeList) : Walked s t :=
  { h with
    nonReplies := fun q => by rw [ports]
    retired := fun q w hw => ⟨w, by rwa [ports] at hw, rfl, id⟩
    changeList := changeList }

theorem refl (s : State) : Walked s s := of_ports (Quiet.refl s) rfl fun _ h => h

theorem trans {s t u : State} (h : Walked s t) (k : Walked t u) : Walked s u :=
  { h.toQuiet.trans k.toQuiet with
    nonReplies := fun q => (h.nonReplies q).trans (k.nonReplies q)
    retired := fun q w hw => by
      obtain ⟨v, hv, vw, marked⟩ := k.retired q w hw
      obtain ⟨x, hx, xv, marked'⟩ := h.retired q v hv
      exact ⟨x, hx, xv.trans vw, marked ∘ marked'⟩
    changeList := fun e he => h.changeList e (k.changeList e he) }

/-- Any change of the ports that keeps these. -/
theorem mapPorts {s t : State} (h : Quiet s t)
    (nonReplies : ∀ q : Port, (s.ports[q]).nonReplies ≤ (t.ports[q]).nonReplies)
    (calendar : ∀ q : Port, (t.ports[q]).calendar = (s.ports[q]).calendar) (store : t.store = s.store) : Walked s t :=
  { h with
    nonReplies := nonReplies
    retired := fun q w hw => ⟨w, by rwa [calendar] at hw, rfl, id⟩
    changeList := fun e he => by rwa [store] at he }

theorem modSlot (s : State) (i : Slot) (f : SlotCell → SlotCell) : Walked s (s.modSlot i f) :=
  of_ports (Quiet.modSlot s i f) rfl fun _ h => h

theorem modRecord (s : State) (i : Slot) (f : Record → Record) : Walked s (s.modRecord i f) := modSlot s i _

theorem enqueue (s : State) (p : Port) (f : ControlFrame) : Walked s (s.enqueue p f) := by
  refine mapPorts (Quiet.enqueue s p f) (fun q => ?_) (fun q => ?_) rfl
  all_goals
    rw [State.enqueue, State.modPort_get]
    split
  · next h =>
    subst h
    simp only [PortState.nonReplies, List.filter_append, List.length_append]
    omega
  · exact le_rfl
  · next h => subst h; rfl
  · rfl

theorem handNotice (k : NoticeKind) (i : Slot) (s : State) : Walked s (Machine.handNotice k i s) := by
  unfold Machine.handNotice
  split
  · exact refl s
  · split
    · exact enqueue ..
    · exact modRecord ..

end Walked

theorem handNotice_other_slot (k : NoticeKind) {i j : Slot} (h : j ≠ i) (s : State) :
    (handNotice k i s).slots[j] = s.slots[j] := by
  unfold handNotice
  split
  · rfl
  · split
    · rfl
    · exact s.modRecord_get_ne i j _ h

section Notice

variable {s : State} {i : Slot} {r : Record}

theorem State.nonReplyFree_eq_false_iff {p : Port} :
    s.nonReplyFree p = false ↔ s.portUp p = false ∨ 8 ≤ (s.ports[p]).nonReplies := by
  refine ⟨fun h => ?_, State.nonReplyFree_eq_false⟩
  cases up : s.portUp p with
  | false => exact .inl rfl
  | true =>
    refine .inr (Nat.not_lt.1 fun free => ?_)
    rw [State.nonReplyFree_iff.2 ⟨up, free⟩] at h
    cases h

/-- What a handed notice leaves of its slot: NOTICE_LOST where it found no place (R43, R115). -/
theorem handNotice_slot (hr : s.recordAt i = some r) (k : NoticeKind) :
    (handNotice k i s).slots[i] =
      { s.slots[i] with
        record := some
          { r with flags :=
            { r.flags with noticeLost := r.flags.noticeLost || !s.nonReplyFree r.ownerPort } } } := by
  cases free : s.nonReplyFree r.ownerPort with
  | true =>
    obtain ⟨up, place⟩ := State.nonReplyFree_iff.1 free
    rw [handNotice_queued hr k up place]
    simpa [State.withControl] using State.slot_eq_of_recordAt hr
  | false =>
    rw [handNotice_lost hr k (State.nonReplyFree_eq_false_iff.1 free)]
    simp [State.withRecord]

/-- Whether a notice was lost, read off what stands before and after the walk in which it was handed. -/
theorem lost_of_walked {u t : State} (before : Walked s u) (after : Walked u t) {p : Port} :
    (s.portUp p = false → (!u.nonReplyFree p) = true) ∧ (8 ≤ (s.ports[p]).nonReplies → (!u.nonReplyFree p) = true) ∧
      (s.portUp p = true → (t.ports[p]).nonReplies < 8 → (!u.nonReplyFree p) = false) := by
  have up := before.portUp p
  refine ⟨fun down => ?_, fun full => ?_, fun isUp free => ?_⟩
  · rw [State.nonReplyFree_eq_false (.inl (up.trans down))]; rfl
  · rw [State.nonReplyFree_eq_false (.inr (full.trans (before.nonReplies p)))]; rfl
  · rw [State.nonReplyFree_iff.2 ⟨up.trans isUp, (after.nonReplies p).trans_lt free⟩]; rfl

end Notice

/-! ### Suspension (R32, R41, R66) -/

section Suspend

/-- Record `r` of a slot as the departure of a port leaves it, before its notice (R32, R41). -/
def Record.suspendedFrom (r : Record) (c : SlotCell) : Record :=
  { r with
    state := .suspended
    leg0 := { r.leg0 with misses := 0 }
    leg1 := r.leg1.map fun l => { l with misses := 0 }
    wake := ⟨false, false⟩
    droppedFrames := satAdd r.droppedFrames (c.queue0.length + c.queue1.length) }

/-- `s` with record `r` of slot `i` suspended and its windows lent, before the notice (R32, R66). -/
def State.withSuspended (s : State) (i : Slot) (r : Record) : State :=
  { s.withSlot i { s.slots[i] with record := some (r.suspendedFrom s.slots[i]), queue0 := [], queue1 := [] } with
    ports := s.ports.map fun ps => { ps with current := ps.current.givenUpBy i } }

variable {s : State} {i : Slot} {r : Record}

theorem releaseInstances_eq (i : Slot) (s : State) :
    releaseInstances i s =
      { s with ports := s.ports.map fun ps => { ps with current := ps.current.givenUpBy i } } := by
  have ports : (releaseInstances i s).ports =
      s.ports.map fun ps => { ps with current := ps.current.givenUpBy i } := by
    refine Vector.ext fun q hq => ?_
    have left := releaseInstances_port i s ⟨q, hq⟩
    rw [releaseInstance_eq] at left
    rw [Vector.getElem_map]
    exact left
  rw [releaseInstances_frame, ports]

theorem suspendRecord_eq (hr : s.recordAt i = some r) :
    suspendRecord i s = handNotice .suspended i (s.withSuspended i r) := by
  have hc : (s.slots[i]).record = some r := hr
  unfold suspendRecord flushQueues
  rw [State.modSlot_eq_withSlot, State.withSlot_modRecord, releaseInstances_eq]
  simp only [hc, Option.map_some]
  rfl

theorem State.withSuspended_slot : (s.withSuspended i r).slots[i] =
    { s.slots[i] with record := some (r.suspendedFrom s.slots[i]), queue0 := [], queue1 := [] } :=
  State.withSlot_slot_self ..

theorem State.withSuspended_port (q : Port) :
    (s.withSuspended i r).ports[q] = { s.ports[q] with current := (s.ports[q]).current.givenUpBy i } := by
  simp [State.withSuspended]

theorem State.withSuspended_recordAt : (s.withSuspended i r).recordAt i = some (r.suspendedFrom s.slots[i]) :=
  congrArg SlotCell.record State.withSuspended_slot

theorem Walked.withSuspended : Walked s (s.withSuspended i r) := by
  refine .mapPorts { Quiet.refl s with link := fun q => ?_, policy := fun q => ?_ } (fun q => ?_) (fun q => ?_) rfl
  all_goals rw [State.withSuspended_port]
  exact le_rfl

theorem suspendRecord_other_slot {j : Slot} (h : j ≠ i) (s : State) : (suspendRecord i s).slots[j] = s.slots[j] := by
  unfold suspendRecord flushQueues
  rw [handNotice_other_slot _ h, releaseInstances_frame]
  simp only [State.modRecord_get_ne _ _ _ _ h, State.modSlot_get_ne _ _ _ _ h]

theorem Walked.suspendRecord (i : Slot) (s : State) : Walked s (Machine.suspendRecord i s) := by
  cases hr : s.recordAt i with
  | some r =>
    rw [suspendRecord_eq hr]
    exact Walked.withSuspended.trans (Walked.handNotice ..)
  | none =>
    unfold Machine.suspendRecord
    refine .trans ?_ (Walked.handNotice ..)
    refine .mapPorts ((Quiet.flushQueues i s).trans ((Quiet.modRecord ..).trans (Quiet.releaseInstances ..)))
      (fun q => ?_) (fun q => ?_) (by rw [releaseInstances_frame]; rfl)
    all_goals rw [releaseInstances_port]; rfl

end Suspend

/-! ### Ends and resumptions (R33, R34) -/

section EndResume

variable {s : State} {i : Slot} {r : Record}

theorem Window.retiredFor_owner (i : Slot) (w : Window) : (w.retiredFor i).owner = w.owner := by
  unfold Window.retiredFor
  split
  · next h => exact h.symm ▸ rfl
  · rfl

theorem Window.retiring_retiredFor {i : Slot} {w : Window} (h : w.retiring = true) :
    (w.retiredFor i).retiring = true := by
  unfold Window.retiredFor
  split
  · simp [h]
  · exact h

theorem Walked.withEnded (why : EndReason) : Walked s (s.withEnded i why r) where
  toQuiet := { Quiet.refl s with
    link := fun q => by rw [State.withEnded_port]
    policy := fun q => by rw [State.withEnded_port] }
  nonReplies q := by
    rw [State.withEnded_port]
    exact le_rfl
  retired q w hw := by
    rw [State.withEnded_port] at hw
    obtain ⟨v, hv, rfl⟩ := List.mem_map.1 hw
    exact ⟨v, hv, (v.retiredFor_owner i).symm, Window.retiring_retiredFor⟩
  changeList _ h := h

theorem resumeRecord_eq (hr : s.recordAt i = some r) :
    resumeRecord i s = handNotice .active i (s.withRecord i (some { r with state := .active })) := by
  rw [resumeRecord, State.modRecord_eq_withRecord hr]

theorem resumeRecord_other_slot {j : Slot} (h : j ≠ i) (s : State) : (resumeRecord i s).slots[j] = s.slots[j] := by
  rw [resumeRecord, handNotice_other_slot _ h, State.modRecord_get_ne _ _ _ _ h]

theorem Walked.resumeRecord (i : Slot) (s : State) : Walked s (Machine.resumeRecord i s) :=
  (Walked.modRecord ..).trans (Walked.handNotice ..)

theorem endRecord_other_slot {j : Slot} (h : j ≠ i) (why : EndReason) (s : State) :
    (endRecord i why s).slots[j] = s.slots[j] := by
  rw [endRecord_slot, if_neg h]

end EndResume

/-! ### The walk of a departure (R32, R161) -/

section Departure

variable {p : Port} {s : State} {i : Slot} {r : Record}

/-- What the departure of port `p` does at slot `i`. -/
def departAt (p : Port) (i : Slot) (s : State) : State :=
  match s.recordAt i with
  | some r => if r.onPort p ∧ (r.state = .active ∨ r.state = .dormant) then suspendRecord i s else s
  | none => s

theorem portDepartsFromRecords_eq (p : Port) (s : State) :
    portDepartsFromRecords p s = (List.finRange 128).foldl (fun t i => departAt p i t) s := rfl

theorem departAt_of_leaving (hr : s.recordAt i = some r)
    (h : r.onPort p = true ∧ (r.state = .active ∨ r.state = .dormant)) : departAt p i s = suspendRecord i s := by
  simp only [departAt, hr, if_pos h]

theorem departAt_of_staying (h : ∀ r, s.recordAt i = some r →
    ¬(r.onPort p = true ∧ (r.state = .active ∨ r.state = .dormant))) : departAt p i s = s := by
  unfold departAt
  split
  · next r hr => exact if_neg (h r hr)
  · rfl

theorem departAt_or (p : Port) (i : Slot) (s : State) : departAt p i s = s ∨ departAt p i s = suspendRecord i s := by
  by_cases h : ∃ r, s.recordAt i = some r ∧ r.onPort p = true ∧ (r.state = .active ∨ r.state = .dormant)
  · obtain ⟨r, hr, leaving⟩ := h
    exact .inr (departAt_of_leaving hr leaving)
  · exact .inl (departAt_of_staying fun r hr leaving => h ⟨r, hr, leaving⟩)

theorem departAt_other_slot (p : Port) (i j : Slot) (s : State) (h : j ≠ i) :
    (departAt p i s).slots[j] = s.slots[j] := by
  rcases departAt_or p i s with e | e
  · rw [e]
  · rw [e, suspendRecord_other_slot h]

theorem Walked.departAt (p : Port) (i : Slot) (s : State) : Walked s (Machine.departAt p i s) := by
  rcases departAt_or p i s with e | e
  · rw [e]; exact Walked.refl s
  · rw [e]; exact Walked.suspendRecord i s

/-- The walk, read at one slot. -/
theorem portDepartsFromRecords_visit (p : Port) (s : State) (i : Slot) :
    ∃ u, Walked s u ∧ u.slots[i] = s.slots[i] ∧ Walked (Machine.departAt p i u) (portDepartsFromRecords p s) ∧
      (portDepartsFromRecords p s).slots[i] = (Machine.departAt p i u).slots[i] :=
  foldl_visit (get := fun s (i : Slot) => s.slots[i]) Walked.refl Walked.trans (Walked.departAt p)
    (departAt_other_slot p) (List.nodup_finRange 128)
    (List.mem_finRange i) s

theorem portDepartsFromRecords_slot_of_leaving (hr : s.recordAt i = some r)
    (leaving : r.onPort p = true ∧ (r.state = .active ∨ r.state = .dormant)) :
    ∃ lost : Bool, (s.portUp r.ownerPort = false → lost = true) ∧
      (8 ≤ (s.ports[r.ownerPort]).nonReplies → lost = true) ∧
      (s.portUp r.ownerPort = true → ((portDepartsFromRecords p s).ports[r.ownerPort]).nonReplies < 8 → lost = false) ∧
      (portDepartsFromRecords p s).slots[i] =
        { s.slots[i] with
          record := some
            { r.suspendedFrom s.slots[i] with flags := { r.flags with noticeLost := r.flags.noticeLost || lost } }
          queue0 := []
          queue1 := [] } := by
  obtain ⟨u, before, found, after, left⟩ := portDepartsFromRecords_visit p s i
  have hu : u.recordAt i = some r := (congrArg SlotCell.record found).trans hr
  rw [departAt_of_leaving hu leaving] at after left
  have suspended : Walked s (u.withSuspended i r) := before.trans Walked.withSuspended
  have handed : Walked (u.withSuspended i r) (portDepartsFromRecords p s) := by
    rw [suspendRecord_eq hu] at after
    exact (Walked.handNotice ..).trans after
  obtain ⟨down, full, free⟩ := lost_of_walked (p := r.ownerPort) suspended handed
  refine ⟨_, down, full, free, ?_⟩
  rw [left, suspendRecord_eq hu, handNotice_slot State.withSuspended_recordAt, State.withSuspended_slot, found]
  rfl

theorem portDepartsFromRecords_slot_of_staying
    (h : ∀ r, s.recordAt i = some r → ¬(r.onPort p = true ∧ (r.state = .active ∨ r.state = .dormant))) :
    (portDepartsFromRecords p s).slots[i] = s.slots[i] := by
  obtain ⟨u, _, found, _, left⟩ := portDepartsFromRecords_visit p s i
  rw [left, departAt_of_staying, found]
  exact fun r hr => h r ((congrArg SlotCell.record found).symm.trans hr)

end Departure

end Sys2Proof.Machine

/-! SUPPORT. Control frames removed unsent (chapters 05 and 07): the masters and records they leave, and the departure
and arrival of a port (chapter 08). -/

namespace Sys2Proof.Machine

/-! ### Tables overwritten with what they hold -/

theorem State.withMaster_self (s : State) (m : MasterIndex) : s.withMaster m s.masters[m] = s := by
  have same : s.masters.set m s.masters[m] = s.masters := by
    refine Vector.ext fun j hj => ?_
    rw [Vector.getElem_set]
    split
    · next h => subst h; rfl
    · rfl
  exact congrArg (fun x => { s with masters := x }) same

theorem State.withMaster_master (s : State) (m k : MasterIndex) (e : Option Master) :
    (s.withMaster m e).masters[k] = if k = m then e else s.masters[k] := s.putMaster_get m k e

/-! ### One frame removed unsent (R115, R118, R149) -/

section Unsent

theorem replyGone_eq_bind (m : MasterIndex) (s : State) :
    replyGone m s = s.withMaster m ((s.masters[m]).bind Master.replyLeft) := by
  cases he : s.masters[m] with
  | some e => exact replyGone_eq_left he
  | none =>
    have kept := s.withMaster_self m
    rw [he] at kept
    rw [replyGone, he]
    exact kept.symm

/-- Record `r` under the stream number `n`, when `gone` are the frames removed unsent (R43, R115). -/
def Record.losing (r : Record) (gone : List ControlFrame) (n : Nat) : Record :=
  if gone.any fun f => f.cls == .notice n then markLost r else r

/-- An entry of the master table at index `m`, when `gone` are the frames removed unsent (R118). -/
def masterLosing (e : Option Master) (gone : List ControlFrame) (m : MasterIndex) : Option Master :=
  if gone.any fun f => f.cls == .reply m then e.bind Master.replyLeft else e

/-- The walk over the frames removed, head first. -/
def discardAll (gone : List ControlFrame) (s : State) : State := gone.foldl (fun s f => discardControl f s) s

theorem loseNotice_slot (n : Nat) (s : State) (i : Slot) :
    (loseNotice n s).slots[i] =
      { s.slots[i] with
        record := (s.recordAt i).map fun r =>
          if n = s.streamOf i then markLost r else r } := by
  have kept : n ≠ s.streamOf i ∨ s.recordAt i = none → s.slots[i] = { s.slots[i] with
      record := (s.recordAt i).map fun r =>
        if n = s.streamOf i then markLost r else r } := by
    rintro (other | free)
    · simp only [if_neg other, Option.map_id']
      rfl
    · rw [free, Option.map_none, ← free]
      rfl
  unfold loseNotice
  split
  · next j named =>
    obtain ⟨recorded, number⟩ := State.resolve_eq.1 named
    by_cases h : i = j
    · subst h
      have same : n = s.streamOf i := number.symm
      rw [State.modRecord_get_self]
      simp only [if_pos same]
      rfl
    · rw [State.modRecord_get_ne _ _ _ _ h]
      refine kept ?_
      by_contra both
      obtain ⟨same, used⟩ := not_or.1 both
      have toI : s.resolve n = some i :=
        State.resolve_eq.2 ⟨Option.isSome_iff_ne_none.2 used, (not_not.1 same).symm⟩
      exact h (Option.some.inj (toI.symm.trans named))
  · next stale =>
    refine kept ?_
    cases hr : s.recordAt i with
    | none => exact .inr rfl
    | some r => exact .inl (State.resolve_none.1 stale i r hr).symm

theorem discardControl_slot (f : ControlFrame) (s : State) (i : Slot) :
    (discardControl f s).slots[i] =
      { s.slots[i] with record := (s.recordAt i).map fun r => r.losing [f] (s.streamOf i) } := by
  have kept : (∀ n, f.cls ≠ .notice n) →
      s.slots[i] = { s.slots[i] with record := (s.recordAt i).map fun r => r.losing [f] (s.streamOf i) } := by
    intro other
    have same : ∀ r : Record, r.losing [f] (s.streamOf i) = r := fun r => if_neg (by simp [other])
    simp only [same, Option.map_id']
    rfl
  unfold discardControl
  split
  · next m hc =>
    rw [replyGone_eq_bind]
    exact kept (by rw [hc]; nofun)
  · next n hc =>
    rw [loseNotice_slot]
    simp [Record.losing, hc]
  · next hc => exact kept (by rw [hc]; nofun)

theorem discardControl_master (f : ControlFrame) (s : State) (m : MasterIndex) :
    (discardControl f s).masters[m] = masterLosing s.masters[m] [f] m := by
  unfold discardControl
  split
  · next k hc =>
    rw [replyGone_eq_bind, State.withMaster_master]
    by_cases h : m = k
    · subst h
      simp [masterLosing, hc]
    · simp [masterLosing, hc, h, Ne.symm h]
  · next n hc =>
    have kept : (loseNotice n s).masters = s.masters := by
      unfold loseNotice
      split <;> rfl
    simp [masterLosing, hc, kept]
  · next hc => simp [masterLosing, hc]

theorem discardControl_frame (f : ControlFrame) (s : State) :
    discardControl f s =
      { s with slots := (discardControl f s).slots, masters := (discardControl f s).masters } := by
  unfold discardControl
  split
  · rw [replyGone_eq_bind]
    rfl
  · unfold loseNotice
    split <;> rfl
  · rfl

/-! ### All the frames removed -/

theorem Record.losing_losing (r : Record) (f : ControlFrame) (l : List ControlFrame) (n : Nat) :
    (r.losing [f] n).losing l n = r.losing (f :: l) n := by
  unfold Record.losing
  by_cases first : f.cls = .notice n <;> simp [first, markLost_markLost]

/-- An entry whose reply left once is as if it left again. -/
theorem Master.replyLeft_replyLeft (e : Master) : e.replyLeft.bind Master.replyLeft = e.replyLeft := by
  unfold Master.replyLeft
  by_cases due : e.phase = .replyDue
  · by_cases none : e.held = 0 <;> simp [due, none]
  · simp [due]

theorem masterLosing_masterLosing (e : Option Master) (f : ControlFrame) (l : List ControlFrame) (m : MasterIndex) :
    masterLosing (masterLosing e [f] m) l m = masterLosing e (f :: l) m := by
  have twice : (e.bind Master.replyLeft).bind Master.replyLeft = e.bind Master.replyLeft := by
    cases e with
    | none => rfl
    | some e => exact e.replyLeft_replyLeft
  unfold masterLosing
  by_cases first : f.cls = .reply m <;> simp [first, twice]

theorem discardAll_slot (gone : List ControlFrame) (s : State) (i : Slot) :
    (discardAll gone s).slots[i] =
      { s.slots[i] with record := (s.recordAt i).map fun r => r.losing gone (s.streamOf i) } := by
  induction gone generalizing s with
  | nil =>
    have same : ∀ r : Record, r.losing [] (s.streamOf i) = r := fun r => if_neg (by simp)
    simp only [same, Option.map_id']
    rfl
  | cons f l ih =>
    have step := discardControl_slot f s i
    have record : (discardControl f s).recordAt i = (s.recordAt i).map fun r => r.losing [f] (s.streamOf i) :=
      congrArg SlotCell.record step
    have stream : (discardControl f s).streamOf i = s.streamOf i := by rw [State.streamOf, step]; rfl
    calc (discardAll l (discardControl f s)).slots[i]
      _ = _ := ih (discardControl f s)
      _ = _ := by
        rw [record, stream, step, Option.map_map]
        simp only [Function.comp_def, Record.losing_losing]

theorem discardAll_master (gone : List ControlFrame) (s : State) (m : MasterIndex) :
    (discardAll gone s).masters[m] = masterLosing s.masters[m] gone m := by
  induction gone generalizing s with
  | nil => rfl
  | cons f l ih =>
    calc (discardAll l (discardControl f s)).masters[m]
      _ = masterLosing (discardControl f s).masters[m] l m := ih (discardControl f s)
      _ = masterLosing s.masters[m] (f :: l) m := by rw [discardControl_master, masterLosing_masterLosing]

theorem discardAll_frame (gone : List ControlFrame) (s : State) :
    discardAll gone s = { s with slots := (discardAll gone s).slots, masters := (discardAll gone s).masters } :=
  foldl_frame (fun t => (t.slots, t.masters)) (fun t x => { t with slots := x.1, masters := x.2 }) (fun _ => rfl)
    (fun _ _ _ => rfl) _ (fun t f => discardControl_frame f t) gone s

/-- Frames are removed without a look at the ports. -/
theorem discardControl_withPorts (f : ControlFrame) (s : State) (x : Vector PortState 8) :
    discardControl f { s with ports := x } = { discardControl f s with ports := x } := by
  unfold discardControl
  split
  · rw [replyGone_eq_bind, replyGone_eq_bind]
    rfl
  · have same : ∀ n, State.resolve { s with ports := x } n = s.resolve n := fun _ => rfl
    unfold loseNotice
    rw [same]
    split <;> rfl
  · rfl

theorem discardAll_withPorts (gone : List ControlFrame) (s : State) (x : Vector PortState 8) :
    discardAll gone { s with ports := x } = { discardAll gone s with ports := x } := by
  induction gone generalizing s with
  | nil => rfl
  | cons f l ih =>
    show discardAll l (discardControl f { s with ports := x }) = _
    rw [discardControl_withPorts, ih]
    rfl

theorem discardAll_append (l k : List ControlFrame) (s : State) :
    discardAll (l ++ k) s = discardAll k (discardAll l s) := List.foldl_append ..

theorem discardAll_ports (gone : List ControlFrame) (s : State) : (discardAll gone s).ports = s.ports := by
  rw [discardAll_frame]

theorem flushControl_eq (p : Port) (s : State) :
    flushControl p s =
      (discardAll (s.ports[p]).controlQueue s).withPort p { s.ports[p] with controlQueue := [] } := by
  have flushed := discardAll_withPorts (s.ports[p]).controlQueue s
    (s.ports.set p { s.ports[p] with controlQueue := [] })
  rw [State.withPort, discardAll_ports]
  exact flushed

/-- The transmitter lets go of its frame, which is removed as those of the queue are when it holds a place there. -/
theorem abandonTransmission_eq (p : Port) (s : State) :
    ∃ l, (s.ports[p]).controlFrames = l ++ (s.ports[p]).controlQueue ∧
      abandonTransmission p s = (discardAll l s).withPort p { s.ports[p] with tx := .free } := by
  cases htx : (s.ports[p]).tx with
  | free =>
    exact ⟨[], by simp only [PortState.controlFrames, htx], by simp only [abandonTransmission, htx]; rfl⟩
  | busy c frame endAt =>
    cases c
    case control f =>
      refine ⟨[f], by simp only [PortState.controlFrames, htx], ?_⟩
      simp only [abandonTransmission, htx]
      rw [State.withPort, discardAll_ports]
      exact discardControl_withPorts f s _
    all_goals
      exact ⟨[], by simp only [PortState.controlFrames, htx], by simp only [abandonTransmission, htx]; rfl⟩

/-- The port's transmitter stopped and its queues emptied (R152). -/
def PortState.lost (ps : PortState) : PortState := { ps with tx := .free, controlQueue := [], openQueue := [] }

/-- The loss of a port removes every frame that holds a place of its control queue (R118, R152). -/
theorem egressLoss_eq (p : Port) (s : State) :
    egressLoss p s = (discardAll (s.ports[p]).controlFrames s).withPort p (s.ports[p]).lost := by
  obtain ⟨l, frames, abandoned⟩ := abandonTransmission_eq p s
  have port : ((discardAll l s).withPort p { s.ports[p] with tx := .free }).ports[p] =
      { s.ports[p] with tx := .free } := State.withPort_port_self ..
  have flushed : flushControl p (abandonTransmission p s) =
      (discardAll (s.ports[p]).controlFrames s).withPort p { s.ports[p] with tx := .free, controlQueue := [] } := by
    rw [abandoned, flushControl_eq, port, frames, discardAll_append]
    simp only [State.withPort, discardAll_withPorts, discardAll_ports, Vector.set_set]
  rw [egressLoss, flushed, State.modPort_eq_withPort, State.withPort_port_self]
  simp only [State.withPort, Vector.set_set]
  rfl

end Unsent

/-! ### Masters and stations of a departed port (R118, R175) -/

section DepartedPort

theorem overMasters_frame (f : MasterIndex → State → State) (h : ∀ m t, f m t = { t with masters := (f m t).masters })
    (s : State) : overMasters f s = { s with masters := (overMasters f s).masters } := by
  unfold overMasters
  exact foldl_frame State.masters (fun t x => { t with masters := x }) (fun _ => rfl) (fun _ _ _ => rfl) _
    (fun t m => h m t) _ s

/-- What the departure of port `p` leaves of an entry (R118). -/
def masterDeparted (p : Port) (e : Option Master) : Option Master :=
  e.bind fun e => if e.port = p then e.replyLeft else some e

/-- What the departure of port `p` does at index `m`. -/
def departMaster (p : Port) (m : MasterIndex) (s : State) : State :=
  match s.masters[m] with
  | some e => if e.port = p then replyGone m s else s
  | none => s

theorem departMaster_eq (p : Port) (m : MasterIndex) (s : State) :
    departMaster p m s = s.withMaster m (masterDeparted p s.masters[m]) := by
  have kept := s.withMaster_self m
  unfold departMaster
  split
  · next e he =>
    rw [he] at kept ⊢
    simp only [masterDeparted, Option.bind_some]
    split
    · rw [replyGone_eq_bind, he]
      rfl
    · exact kept.symm
  · next he =>
    rw [he] at kept ⊢
    exact kept.symm

theorem portDepartsFromMasters_eq (p : Port) (s : State) :
    portDepartsFromMasters p s = { s with masters := s.masters.map (masterDeparted p) } := by
  have walk : portDepartsFromMasters p s = overMasters (departMaster p) s := rfl
  have frame := overMasters_frame (departMaster p) (fun m t => by rw [departMaster_eq]; rfl) s
  have masters : (overMasters (departMaster p) s).masters = s.masters.map (masterDeparted p) := by
    refine Vector.ext fun k hk => ?_
    have each := foldl_each (departMaster p) (fun s (k : MasterIndex) => s.masters[k]) (fun _ => masterDeparted p)
      (fun m s => by rw [departMaster_eq, State.withMaster_master, if_pos rfl])
      (fun m k s h => by rw [departMaster_eq, State.withMaster_master, if_neg h]) (List.finRange 16)
      (List.nodup_finRange 16) s ⟨k, hk⟩
    rw [if_pos (List.mem_finRange _)] at each
    rw [Vector.getElem_map]
    exact each
  rw [walk, frame, masters]

theorem portDepartsFromStations_eq (p : Port) (s : State) :
    portDepartsFromStations p s = { s with stations := s.stations.map (departEntry p) } := by
  have frame := overPlaces_frame (fun i s => s.putStation i (departEntry p s.stations[i])) (fun _ _ => rfl) s
  have stations : (portDepartsFromStations p s).stations = s.stations.map (departEntry p) := by
    refine Vector.ext fun k hk => ?_
    rw [Vector.getElem_map]
    exact overPlaces_each (departEntry p) s ⟨k, hk⟩
  rw [← stations]
  exact frame

end DepartedPort

end Sys2Proof.Machine

/-! SUPPORT. The departure and the arrival of a port as statements have them (chapter 08). -/

namespace Sys2Proof.Machine

section Told

variable {s : State} {i : Slot} {r : Record}

/-- A suspended record with the notice of it, where the owner is told (R32, R114). -/
theorem suspendRecord_queued (hr : s.recordAt i = some r) (up : s.portUp r.ownerPort = true)
    (free : (s.ports[r.ownerPort]).nonReplies < 8) :
    suspendRecord i s = (s.withSuspended i r).withControl r.ownerPort
      { dest := r.ownerAddr, cls := .notice (s.streamOf i)
        message := .notice .suspended (s.streamOf i) s.time.hypercycle r.flags none } := by
  have same : Walked s (s.withSuspended i r) := Walked.withSuspended
  have stream : (s.withSuspended i r).streamOf i = s.streamOf i := by
    rw [State.streamOf, State.withSuspended_slot]
    rfl
  have free' : ((s.withSuspended i r).ports[r.ownerPort]).nonReplies < 8 := by
    rw [State.withSuspended_port]
    exact free
  have handed := handNotice_queued (s := s.withSuspended i r) State.withSuspended_recordAt .suspended
    ((same.portUp r.ownerPort).trans up) free'
  rw [suspendRecord_eq hr, handed, stream]
  rfl

/-- A suspended record with NOTICE_LOST, where the owner cannot be told (R43, R115). -/
theorem suspendRecord_lost (hr : s.recordAt i = some r)
    (h : s.portUp r.ownerPort = false ∨ 8 ≤ (s.ports[r.ownerPort]).nonReplies) :
    suspendRecord i s = (s.withSuspended i r).withRecord i
      (some { r.suspendedFrom s.slots[i] with flags := { r.flags with noticeLost := true } }) := by
  have same : Walked s (s.withSuspended i r) := Walked.withSuspended
  have lost : (s.withSuspended i r).portUp r.ownerPort = false ∨
      8 ≤ ((s.withSuspended i r).ports[r.ownerPort]).nonReplies := by
    rw [same.portUp, State.withSuspended_port]
    exact h
  rw [suspendRecord_eq hr, handNotice_lost (s := s.withSuspended i r) State.withSuspended_recordAt .suspended lost]
  rfl

end Told

/-- Settles O7: the suspension of one record, the walk over the slots, the frames of the port, and the walks over
masters and stations. -/
theorem departureSuspendsTheRecordsOfThePort : Obligations.DepartureSuspendsTheRecordsOfThePort := by
  refine ⟨?_, fun p s => rfl, fun p s i r hr => ⟨portDepartsFromRecords_slot_of_leaving hr, fun stays => ?_⟩, ?_,
    ?_, ?_⟩
  · intro s i r hr suspended lent u
    have same : u = s.withSuspended i r := rfl
    rw [same]
    exact ⟨suspendRecord_queued hr, suspendRecord_lost hr⟩
  · refine portDepartsFromRecords_slot_of_staying fun r' hr' => ?_
    cases hr.symm.trans hr'
    rintro ⟨on, standing⟩
    rcases stays with off | ⟨notActive, notDormant⟩
    · rw [off] at on; cases on
    · exact standing.elim notActive notDormant
  · intro p s t gone
    have ht : t = (discardAll gone s).withPort p (s.ports[p]).lost := egressLoss_eq p s
    refine ⟨?_, ?_, fun q hq => ?_, fun i => ?_, fun m => ?_⟩
    · rw [ht, State.withPort, discardAll_frame]
    · rw [ht]
      exact State.withPort_port_self ..
    · rw [ht, State.withPort, discardAll_ports]
      exact State.modPort_get_ne s p q (fun _ => (s.ports[p]).lost) hq
    · rw [ht]
      exact discardAll_slot gone s i
    · rw [ht]
      exact discardAll_master gone s m
  · intro p s
    rw [portDepartsFromMasters_eq]
    congr 2
    funext e
    cases e <;> rfl
  · intro p s
    rw [portDepartsFromStations_eq]
    congr 2
    funext e
    cases e <;> rfl

/-! ### The walk of an arrival (R33, R162) -/

section Arrival

variable {p : Port} {s : State} {i : Slot} {r : Record}

/-- What the arrival of port `p` does at slot `i`. -/
def arriveAt (p : Port) (i : Slot) (s : State) : State :=
  match s.recordAt i with
  | some r =>
    if r.onPort p ∧ r.state = .suspended then
      if s.otherSpeed r then endRecord i .speedChanged s
      else if s.legsUp r then resumeRecord i s
      else s
    else s
  | none => s

theorem portArrivesAtRecords_eq (p : Port) (s : State) :
    portArrivesAtRecords p s = (List.finRange 128).foldl (fun t i => arriveAt p i t) s := rfl

theorem arriveAt_cases (p : Port) (i : Slot) (s : State) :
    arriveAt p i s = s ∨ (∃ r, s.recordAt i = some r ∧ arriveAt p i s = endRecord i .speedChanged s) ∨
      arriveAt p i s = resumeRecord i s := by
  unfold arriveAt
  split
  · next r hr =>
    split
    · split
      · exact .inr (.inl ⟨r, hr, rfl⟩)
      · split
        · exact .inr (.inr rfl)
        · exact .inl rfl
    · exact .inl rfl
  · exact .inl rfl

theorem arriveAt_other_slot (p : Port) (i j : Slot) (s : State) (h : j ≠ i) :
    (arriveAt p i s).slots[j] = s.slots[j] := by
  rcases arriveAt_cases p i s with e | ⟨r, _, e⟩ | e
  · rw [e]
  · rw [e, endRecord_other_slot h]
  · rw [e, resumeRecord_other_slot h]

theorem Walked.arriveAt (p : Port) (i : Slot) (s : State) : Walked s (Machine.arriveAt p i s) := by
  rcases arriveAt_cases p i s with e | ⟨r, hr, e⟩ | e
  · rw [e]; exact Walked.refl s
  · rw [e, endRecord_eq hr]; exact Walked.withEnded _
  · rw [e]; exact Walked.resumeRecord i s

/-- The walk, read at one slot. -/
theorem portArrivesAtRecords_visit (p : Port) (s : State) (i : Slot) :
    ∃ u, Walked s u ∧ u.slots[i] = s.slots[i] ∧ Walked (Machine.arriveAt p i u) (portArrivesAtRecords p s) ∧
      (portArrivesAtRecords p s).slots[i] = (Machine.arriveAt p i u).slots[i] :=
  foldl_visit (get := fun s (i : Slot) => s.slots[i]) Walked.refl Walked.trans (Walked.arriveAt p)
    (arriveAt_other_slot p) (List.nodup_finRange 128)
    (List.mem_finRange i) s

theorem Quiet.otherSpeed {s t : State} (h : Quiet s t) (r : Record) : t.otherSpeed r = s.otherSpeed r := by
  simp only [State.otherSpeed, h.portSpeed]

theorem Quiet.legsUp {s t : State} (h : Quiet s t) (r : Record) : t.legsUp r = s.legsUp r := by
  simp only [State.legsUp, h.portSpeed, h.portUp]

/-- A window of slot `i` is retiring after a walk in which its record ended. -/
theorem retiring_of_walked {t : State} {why : EndReason} (h : Walked (s.withEnded i why r) t) {q : Port} {w : Window}
    (hw : w ∈ (t.ports[q]).calendar) {n : LegNo} (owner : w.owner = .leg i n) : w.retiring = true := by
  obtain ⟨v, hv, same, marked⟩ := h.retired q w hw
  exact marked (State.withEnded_retiring _ _ _ _ q hv (same.trans owner))

variable (hr : s.recordAt i = some r)
include hr

theorem arriveAt_of_other_speed (arrives : r.onPort p = true ∧ r.state = .suspended) (h : s.otherSpeed r = true) :
    arriveAt p i s = s.withEnded i .speedChanged r := by
  simp only [arriveAt, hr, if_pos arrives, h, if_true, endRecord_eq hr]

theorem arriveAt_of_up (arrives : r.onPort p = true ∧ r.state = .suspended) (h : s.otherSpeed r = false)
    (up : s.legsUp r = true) : arriveAt p i s = resumeRecord i s := by
  simp only [arriveAt, hr, if_pos arrives, h, up, if_true, Bool.false_eq_true, if_false]

theorem arriveAt_of_staying
    (h : ¬(r.onPort p = true ∧ r.state = .suspended) ∨ (s.otherSpeed r = false ∧ s.legsUp r = false)) :
    arriveAt p i s = s := by
  simp only [arriveAt, hr]
  rcases h with h | ⟨sameSpeed, down⟩
  · rw [if_neg h]
  · simp only [sameSpeed, down, Bool.false_eq_true, if_false, ite_self]

theorem portArrivesAtRecords_of_other_speed (arrives : r.onPort p = true ∧ r.state = .suspended)
    (h : s.otherSpeed r = true) :
    (portArrivesAtRecords p s).slots[i] = (s.withEnded i .speedChanged r).slots[i] ∧
      ∀ q : Port, ∀ w ∈ ((portArrivesAtRecords p s).ports[q]).calendar, ∀ n, w.owner = .leg i n →
        w.retiring = true := by
  obtain ⟨u, before, found, after, left⟩ := portArrivesAtRecords_visit p s i
  have hu : u.recordAt i = some r := (congrArg SlotCell.record found).trans hr
  rw [arriveAt_of_other_speed hu arrives ((before.otherSpeed r).trans h)] at after left
  refine ⟨?_, fun q w hw n owner => retiring_of_walked after hw owner⟩
  rw [left, State.withEnded_slot, State.withEnded_slot, found]

theorem portArrivesAtRecords_of_up (arrives : r.onPort p = true ∧ r.state = .suspended) (h : s.otherSpeed r = false)
    (up : s.legsUp r = true) :
    ∃ lost : Bool, (s.portUp r.ownerPort = false → lost = true) ∧
      (8 ≤ (s.ports[r.ownerPort]).nonReplies → lost = true) ∧
      (s.portUp r.ownerPort = true → ((portArrivesAtRecords p s).ports[r.ownerPort]).nonReplies < 8 → lost = false) ∧
      (portArrivesAtRecords p s).slots[i] =
        { s.slots[i] with
          record := some
            { r with state := .active, flags := { r.flags with noticeLost := r.flags.noticeLost || lost } } } := by
  obtain ⟨u, before, found, after, left⟩ := portArrivesAtRecords_visit p s i
  have hu : u.recordAt i = some r := (congrArg SlotCell.record found).trans hr
  rw [arriveAt_of_up hu arrives ((before.otherSpeed r).trans h) ((before.legsUp r).trans up), resumeRecord_eq hu]
    at after left
  have resumed : Walked u (u.withRecord i (some { r with state := .active })) := by
    rw [← State.modRecord_eq_withRecord hu fun r => { r with state := .active }]
    exact Walked.modRecord ..
  obtain ⟨down, full, free⟩ := lost_of_walked (p := r.ownerPort) (before.trans resumed)
    ((Walked.handNotice ..).trans after)
  refine ⟨_, down, full, free, ?_⟩
  rw [left, handNotice_slot (State.withRecord_recordAt ..)]
  simp only [State.withRecord, Vector.getElem_set, Fin.getElem_fin, if_true] at found ⊢
  rw [found]

theorem portArrivesAtRecords_of_staying
    (h : ¬(r.onPort p = true ∧ r.state = .suspended) ∨ (s.otherSpeed r = false ∧ s.legsUp r = false)) :
    (portArrivesAtRecords p s).slots[i] = s.slots[i] := by
  obtain ⟨u, before, found, _, left⟩ := portArrivesAtRecords_visit p s i
  have hu : u.recordAt i = some r := (congrArg SlotCell.record found).trans hr
  rw [left, arriveAt_of_staying hu, found]
  rwa [before.otherSpeed, before.legsUp]

end Arrival

/-- Settles O8: the tests of the legs, the walk, the resumption of one record, and the walk read at one slot. -/
theorem arrivalEndsOrResumesSuspendedRecords : Obligations.ArrivalEndsOrResumesSuspendedRecords := by
  refine ⟨fun s r => ⟨s.otherSpeed_iff r, s.legsUp_iff r⟩, fun p s => rfl, fun s i r hr => ?_, ?_⟩
  · rw [resumeRecord_eq hr]
    exact ⟨handNotice_withRecord_queued (r := { r with state := .active }) .active,
      handNotice_withRecord_lost (r := { r with state := .active }) .active⟩
  · intro p s i r hr t wrongSpeed allUp
    have speed : s.otherSpeed r = true ↔ wrongSpeed := s.otherSpeed_iff r
    have up : s.legsUp r = true ↔ allUp := s.legsUp_iff r
    refine ⟨fun on suspended wrong => ?_, fun on suspended same ready => ?_, fun stays => ?_⟩
    · obtain ⟨slot, retiring⟩ := portArrivesAtRecords_of_other_speed hr ⟨on, suspended⟩ (speed.2 wrong)
      exact ⟨slot.trans (State.withEnded_slot ..), retiring⟩
    · exact portArrivesAtRecords_of_up hr ⟨on, suspended⟩ (Bool.eq_false_iff.2 (mt speed.1 same)) (up.2 ready)
    · refine portArrivesAtRecords_of_staying hr ?_
      rcases stays with off | other | ⟨same, notReady⟩
      · exact .inl fun h => by rw [off] at h; cases h.1
      · exact .inl fun h => other h.2
      · exact .inr ⟨Bool.eq_false_iff.2 (mt speed.1 same), Bool.eq_false_iff.2 (mt up.1 notReady)⟩

end Sys2Proof.Machine

/-! SUPPORT. The schedulers (chapter 07): the test of a port's heads as an equation, the frame a port chooses case by
case, and what both together leave. -/

namespace Sys2Proof.Machine

/-! ### The test of the heads (R149) -/

/-- The control frames of a port that no gap can hold. -/
def PortState.unfit (ps : PortState) (sp : Speed) : List ControlFrame :=
  if ps.longestOpen < wireTime sp controlFrameLength then ps.controlQueue else []

/-- A port after the test of its heads. -/
def PortState.tested (ps : PortState) (sp : Speed) : PortState :=
  { ps with
    controlQueue := if ps.longestOpen < wireTime sp controlFrameLength then [] else ps.controlQueue
    openQueue := ps.openQueue.dropWhile fun f => ps.longestOpen < wireTime sp f.length
    openDrops := satAdd ps.openDrops
      (ps.openQueue.takeWhile fun f => ps.longestOpen < wireTime sp f.length).length }

section TestHeads

variable {s : State} {p : Port} {sp : Speed}

theorem testHeads_of_down (down : s.portSpeed p = none) : testHeads p s = s := by
  rw [testHeads, down]

theorem testHeads_eq (up : s.portSpeed p = some sp) :
    testHeads p s = (discardAll ((s.ports[p]).unfit sp) s).withPort p ((s.ports[p]).tested sp) := by
  rw [testHeads, up]
  simp only [State.modPort_eq_withPort, PortState.unfit, PortState.tested]
  by_cases long : (s.ports[p]).longestOpen < wireTime sp controlFrameLength
  · simp only [if_pos long, flushControl_eq, State.withPort_port_self]
    simp only [State.withPort, Vector.set_set]
    rfl
  · simp only [if_neg long]
    rfl

theorem testHeads_port_self (up : s.portSpeed p = some sp) : (testHeads p s).ports[p] = (s.ports[p]).tested sp := by
  rw [testHeads_eq up, State.withPort_port_self]

theorem State.withPort_port_ne (s : State) (p q : Port) (ps : PortState) (h : q ≠ p) :
    (s.withPort p ps).ports[q] = s.ports[q] := s.modPort_get_ne p q (fun _ => ps) h

theorem testHeads_port_ne {q : Port} (h : q ≠ p) : (testHeads p s).ports[q] = s.ports[q] := by
  cases up : s.portSpeed p with
  | none => rw [testHeads_of_down up]
  | some sp => rw [testHeads_eq up, State.withPort_port_ne _ _ _ _ h, discardAll_ports]

theorem testHeads_frame :
    testHeads p s =
      { s with
        ports := (testHeads p s).ports, slots := (testHeads p s).slots, masters := (testHeads p s).masters } := by
  cases up : s.portSpeed p with
  | none => rw [testHeads_of_down up]
  | some sp => rw [testHeads_eq up, State.withPort, discardAll_frame]

/-- After the test the open head fits in G. -/
theorem PortState.tested_open (ps : PortState) {f : Frame} (h : (ps.tested sp).openQueue.head? = some f) :
    wireTime sp f.length ≤ ps.longestOpen := by
  have fits := List.head?_dropWhile_not (fun f : Frame => decide (ps.longestOpen < wireTime sp f.length)) ps.openQueue
  have head : (ps.openQueue.dropWhile fun f => decide (ps.longestOpen < wireTime sp f.length)).head? = some f := h
  rw [head] at fits
  exact Nat.not_lt.1 (of_decide_eq_false fits)

/-- After the test every control frame fits in G. -/
theorem PortState.tested_control (ps : PortState) (h : (ps.tested sp).controlQueue ≠ []) :
    wireTime sp controlFrameLength ≤ ps.longestOpen := by
  unfold PortState.tested at h
  by_contra long
  exact h (if_pos (Nat.not_le.1 long))

end TestHeads

/-! ### The frame a port chooses (R143, R146, R147) -/

section Choice

/-- What port `p` does when its scheduler chooses: nothing, or the start of one frame from the head of a queue. -/
inductive Chosen (p : Port) (s : State) : State → Prop
  | nothing : Chosen p s s
  | motion {sp : Speed} {w : WindowInstance} {e : HoldEntry} {rest : List HoldEntry} (up : s.portSpeed p = some sp)
      (free : (s.ports[p]).tx = .free) (current : (s.ports[p]).current = .window w) (live : w.cls = .live)
      (queue : (s.slots[w.slot]).queue w.leg = e :: rest)
      (inside : s.time.now + wireTime sp e.frame.length ≤ w.endAt) :
      Chosen p s ((s.withSlot w.slot ((s.slots[w.slot]).withQueue w.leg rest)).withPort p
        { s.ports[p] with
          tx := .busy (.window w.slot w.leg) e.frame (s.time.now + wireTime sp e.frame.length)
          current := .window { w with sent := w.sent + 1 } })
  | control {sp : Speed} {f : ControlFrame} {rest : List ControlFrame} (up : s.portSpeed p = some sp)
      (free : (s.ports[p]).tx = .free) (openTime : ∀ w, (s.ports[p]).current = .window w → w.cls ≠ .live)
      (queue : (s.ports[p]).controlQueue = f :: rest) (fits : s.fits p (wireTime sp controlFrameLength) = true) :
      Chosen p s (s.withPort p
        { s.ports[p] with
          tx := .busy (.control f) (frameOfMessage s.straps.unit f.dest f.message)
            (s.time.now + wireTime sp controlFrameLength)
          controlQueue := rest })
  | openHead {sp : Speed} {f : Frame} {rest : List Frame} (up : s.portSpeed p = some sp)
      (free : (s.ports[p]).tx = .free) (openTime : ∀ w, (s.ports[p]).current = .window w → w.cls ≠ .live)
      (queue : (s.ports[p]).openQueue = f :: rest) (fits : s.fits p (wireTime sp f.length) = true) :
      Chosen p s (s.withPort p
        { s.ports[p] with tx := .busy .openFrame f (s.time.now + wireTime sp f.length), openQueue := rest })

variable {s : State} {p : Port} {sp : Speed}

theorem startWindowFrame_chosen {w : WindowInstance} (up : s.portSpeed p = some sp) (free : (s.ports[p]).tx = .free)
    (current : (s.ports[p]).current = .window w) (live : w.cls = .live) : Chosen p s (startWindowFrame p sp w s) := by
  unfold startWindowFrame
  split
  · exact .nothing
  · split
    · next l e rest _ queue =>
      split
      · next h =>
        have started := Chosen.motion up free current live queue h.2.2
        rw [← SlotCell.setQueue_eq] at started
        exact started
      · exact .nothing
    · exact .nothing

theorem startOpenHead_chosen (up : s.portSpeed p = some sp) (free : (s.ports[p]).tx = .free)
    (openTime : ∀ w, (s.ports[p]).current = .window w → w.cls ≠ .live) : Chosen p s (startOpenHead p sp s) := by
  unfold startOpenHead
  split
  · next f rest queue =>
    split
    · next fits => exact Chosen.openHead up free openTime queue fits
    · exact .nothing
  · exact .nothing

theorem startOpenTimeFrame_chosen (up : s.portSpeed p = some sp) (free : (s.ports[p]).tx = .free)
    (openTime : ∀ w, (s.ports[p]).current = .window w → w.cls ≠ .live) : Chosen p s (startOpenTimeFrame p sp s) := by
  unfold startOpenTimeFrame
  split
  · next f rest queue =>
    split
    · next fits => exact Chosen.control up free openTime queue fits
    · exact startOpenHead_chosen up free openTime
  · exact startOpenHead_chosen up free openTime

theorem chooseFrame_chosen (p : Port) (s : State) : Chosen p s (chooseFrame p s) := by
  by_cases ready : s.portSpeed p = none ∨ (s.ports[p]).tx ≠ .free
  · rw [chooseFrame_of_not_ready ready]
    exact .nothing
  · obtain ⟨up, busy⟩ := not_or.1 ready
    obtain ⟨sp, up⟩ := Option.ne_none_iff_exists'.1 up
    have free := not_not.1 busy
    by_cases inLive : ∃ w, (s.ports[p]).current = .window w ∧ w.cls = .live
    · obtain ⟨w, current, live⟩ := inLive
      rw [chooseFrame_of_live up free current live]
      exact startWindowFrame_chosen up free current live
    · have openTime : ∀ w, (s.ports[p]).current = .window w → w.cls ≠ .live := fun w hw live => inLive ⟨w, hw, live⟩
      rw [chooseFrame_of_open up free openTime]
      exact startOpenTimeFrame_chosen up free openTime

/-- A choice leaves the other ports alone. -/
theorem Chosen.port_ne {t : State} (h : Chosen p s t) {q : Port} (hq : q ≠ p) : t.ports[q] = s.ports[q] := by
  cases h with
  | nothing => rfl
  | motion => exact State.withPort_port_ne _ _ _ _ hq
  | control => exact State.withPort_port_ne _ _ _ _ hq
  | openHead => exact State.withPort_port_ne _ _ _ _ hq

/-- A frame that fits ends by what bounds open time (R9, R146). -/
theorem State.bounds_of_fits {wire : Nat} (h : s.fits p wire = true) :
    (0 < s.time.settle → wire ≤ s.time.settle * s.cycleTicks - s.time.tick) ∧
      (s.time.settle = 0 → ∀ w ∈ (s.ports[p]).calendar, s.bounding w = true →
        wire ≤ w.distance s.cycleTicks s.time.b s.time.tick) := by
  rw [State.fits_iff] at h
  refine ⟨fun settling => by rwa [if_pos (.inl settling)] at h, fun settled w hw hb => ?_⟩
  by_cases due : s.time.boundaryDue = .endOfSettle
  · rw [if_pos (.inr due), settled, Nat.zero_mul, Nat.zero_sub] at h
    omega
  · rw [if_neg (by simp [settled, due])] at h
    exact h w hw hb

end Choice

/-- A frame that a scheduler starts is timed by its length and kept within its bound (R9, R140, R143, R146). -/
theorem Chosen.bound {p : Port} {s t : State} {c : Claimant} {f : Frame} {endAt : Nat} (h : Chosen p s t)
    (free : (s.ports[p]).tx = .free) (busy : (t.ports[p]).tx = .busy c f endAt) :
    ∃ sp wire, s.portSpeed p = some sp ∧ endAt = s.time.now + wire ∧
      ((∃ w, c = .window w.slot w.leg ∧ wire = wireTime sp f.length ∧ (s.ports[p]).current = .window w ∧
          w.cls = .live ∧ endAt ≤ w.endAt) ∨
        (((∃ g, c = .control g) ∧ wire = wireTime sp controlFrameLength ∨
            c = .openFrame ∧ wire = wireTime sp f.length) ∧
          (∀ w, (s.ports[p]).current = .window w → w.cls ≠ .live) ∧ s.fits p wire = true)) := by
  cases h with
  | nothing => rw [free] at busy; cases busy
  | motion up _ current live _ inside =>
    rw [State.withPort_port_self] at busy
    cases busy
    exact ⟨_, _, up, rfl, .inl ⟨_, rfl, rfl, current, live, inside⟩⟩
  | control up _ openTime _ fits =>
    rw [State.withPort_port_self] at busy
    cases busy
    exact ⟨_, _, up, rfl, .inr ⟨.inl ⟨⟨_, rfl⟩, rfl⟩, openTime, fits⟩⟩
  | openHead up _ openTime _ fits =>
    rw [State.withPort_port_self] at busy
    cases busy
    exact ⟨_, _, up, rfl, .inr ⟨.inr ⟨rfl, rfl⟩, openTime, fits⟩⟩

/-! ### The heads after the schedulers (R149) -/

section Walk

theorem chooseFrame_port_ne {p q : Port} {s : State} (h : q ≠ p) : (chooseFrame p s).ports[q] = s.ports[q] :=
  (chooseFrame_chosen p s).port_ne h

theorem schedulePort_port_ne {p q : Port} {s : State} (h : q ≠ p) : (schedulePort p s).ports[q] = s.ports[q] := by
  rw [schedulePort, testHeads_port_ne h, chooseFrame_port_ne h, testHeads_port_ne h]

/-- The walk of the schedulers, read at one port: its own visit alone changes it. -/
theorem settleEgress_visit (s : State) (p : Port) :
    ∃ u, Sending s u ∧ u.ports[p] = s.ports[p] ∧ Sending (schedulePort p u) (settleEgress s) ∧
      (settleEgress s).ports[p] = (schedulePort p u).ports[p] :=
  foldl_visit (get := fun s (p : Port) => s.ports[p]) Sending.refl Sending.trans Sending.schedulePort
    (fun _ _ _ h => schedulePort_port_ne h) (List.nodup_finRange 8) (List.mem_finRange p) s

end Walk

/-- Settles O19: the frame chosen case by case, the test of the heads, and the heads the last test leaves. -/
theorem noFrameRunsPastItsBound : Obligations.NoFrameRunsPastItsBound := by
  refine ⟨?_, fun s p => testHeads_of_down, ?_, ?_⟩
  · intro p s c f endAt free busy
    obtain ⟨sp, wire, up, ends, kind⟩ := (chooseFrame_chosen p s).bound free busy
    rcases kind with ⟨w, rfl, rfl, current, live, inside⟩ | ⟨kind, openTime, fits⟩
    · exact ⟨⟨sp, .inl ⟨up, ends⟩⟩, w, current, live, rfl, rfl, inside⟩
    · obtain ⟨settling, settled⟩ := State.bounds_of_fits fits
      have lasts : endAt - s.time.now = wire := by omega
      rcases kind with ⟨⟨g, rfl⟩, rfl⟩ | ⟨rfl, rfl⟩
      · exact ⟨⟨sp, .inr ⟨sp, up, ends, g, rfl⟩⟩, openTime, lasts ▸ settling, lasts ▸ settled⟩
      · exact ⟨⟨sp, .inl ⟨up, ends⟩⟩, openTime, lasts ▸ settling, lasts ▸ settled⟩
  · intro s p sp up ps exceeds gone t
    have unfit : gone = ps.unfit sp := by
      unfold PortState.unfit
      exact if_congr decide_eq_true_iff rfl rfl
    have tested : t = (discardAll gone s).withPort p (ps.tested sp) := by
      rw [unfit]
      exact testHeads_eq up
    refine ⟨testHeads_frame, ?_, fun q hq => testHeads_port_ne hq, fun i => ?_, fun m => ?_⟩
    · have long : (if exceeds 64 then [] else ps.controlQueue) = (ps.tested sp).controlQueue :=
        if_congr decide_eq_true_iff rfl rfl
      rw [testHeads_port_self up, long]
      rfl
    · rw [tested]
      exact discardAll_slot gone s i
    · rw [tested]
      exact discardAll_master gone s m
  · intro s p sp up ps
    obtain ⟨u, before, found, after, left⟩ := settleEgress_visit s p
    have kept : Sending s (chooseFrame p (testHeads p u)) :=
      (before.trans (Sending.testHeads p u)).trans (Sending.chooseFrame ..)
    have last : ps = ((chooseFrame p (testHeads p u)).ports[p]).tested sp :=
      left.trans (testHeads_port_self ((kept.portSpeed p).trans up))
    have same : ((chooseFrame p (testHeads p u)).ports[p]).longestOpen = ps.longestOpen := by
      rw [last]
      rfl
    rw [← same]
    exact ⟨fun f head => PortState.tested_open _ (last ▸ head), fun more => PortState.tested_control _ (last ▸ more)⟩

end Sys2Proof.Machine

/-! SUPPORT. What the schedulers leave of ports, slots and masters (chapter 07). -/

namespace Sys2Proof.Machine

/-! ### A port under its scheduler -/

theorem satAdd_zero (x : BitVec 16) : satAdd x 0 = x := by
  unfold satAdd
  split
  · bv_omega
  · simp

theorem satAdd_satAdd (x : BitVec 16) (m n : Nat) : satAdd (satAdd x m) n = satAdd x (m + n) := by
  have hx := x.isLt
  unfold satAdd
  by_cases first : 65535 ≤ x.toNat + m
  · rw [if_pos first, if_pos (by omega : 65535 ≤ x.toNat + (m + n)), if_pos (by simp)]
  · have sum : (x + BitVec.ofNat 16 m).toNat = x.toNat + m := by
      rw [BitVec.toNat_add, BitVec.toNat_ofNat]
      omega
    rw [if_neg first, sum, Nat.add_assoc]
    refine if_congr Iff.rfl rfl ?_
    rw [BitVec.ofNat_add, BitVec.add_assoc]

/-- Whether an open frame was started: 1 or 0. -/
def openStarted (before after : Transmitter) : Nat :=
  match before, after with
  | .free, .busy .openFrame _ _ => 1
  | _, _ => 0

theorem openStarted_self (tx : Transmitter) : openStarted tx tx = 0 := by
  cases tx <;> rfl

/-- What its scheduler makes of a port: queues from their heads on, one frame from FREE, counted drops. -/
structure PortSent (a b : PortState) : Prop where
  frame : b = { a with
    tx := b.tx, current := b.current, controlQueue := b.controlQueue, openQueue := b.openQueue,
    openDrops := b.openDrops }
  control : b.controlQueue <:+ a.controlQueue
  openFrames : b.openQueue <:+ a.openQueue
  busy : a.tx ≠ .free → b.tx = a.tx ∧ b.current = a.current
  current : b.current = a.current ∨
    ∃ w f endAt, a.current = .window w ∧ w.cls = .live ∧ b.current = .window { w with sent := w.sent + 1 } ∧
      b.tx = .busy (.window w.slot w.leg) f endAt
  drops : ∃ k, b.openDrops = satAdd a.openDrops k ∧
    a.openQueue.length = b.openQueue.length + k + openStarted a.tx b.tx

namespace PortSent

variable {a b : PortState}

theorem refl (a : PortState) : PortSent a a where
  frame := rfl
  control := List.suffix_rfl
  openFrames := List.suffix_rfl
  busy _ := ⟨rfl, rfl⟩
  current := .inl rfl
  drops := ⟨0, (satAdd_zero _).symm, by rw [openStarted_self]; rfl⟩

theorem tested_control (a : PortState) (sp : Speed) : (a.tested sp).controlQueue <:+ a.controlQueue := by
  unfold PortState.tested
  dsimp only
  split
  · exact List.nil_suffix
  · exact List.suffix_rfl

theorem tested_drops (a : PortState) (sp : Speed) :
    ∃ k, (a.tested sp).openDrops = satAdd a.openDrops k ∧ a.openQueue.length = (a.tested sp).openQueue.length + k := by
  refine ⟨_, rfl, ?_⟩
  have parts := congrArg List.length
    (List.takeWhile_append_dropWhile (p := fun f : Frame => decide (a.longestOpen < wireTime sp f.length))
      (l := a.openQueue))
  rw [List.length_append] at parts
  show _ = (a.openQueue.dropWhile _).length + _
  omega

/-- A test before the frame is chosen. -/
theorem after_test (sp : Speed) (h : PortSent (a.tested sp) b) : PortSent a b where
  frame := by
    have same := h.frame
    rw [same]
    rfl
  control := h.control.trans (tested_control a sp)
  openFrames := h.openFrames.trans (List.dropWhile_suffix _)
  busy := h.busy
  current := h.current
  drops := by
    obtain ⟨k, dropped, length⟩ := tested_drops a sp
    obtain ⟨k', dropped', length'⟩ := h.drops
    refine ⟨k + k', by rw [dropped', dropped, satAdd_satAdd], ?_⟩
    have tx : (a.tested sp).tx = a.tx := rfl
    rw [tx] at length'
    omega

/-- A test after the frame is chosen. -/
theorem before_test (sp : Speed) (h : PortSent a b) : PortSent a (b.tested sp) where
  frame := by
    have same := h.frame
    unfold PortState.tested
    rw [same]
  control := (tested_control b sp).trans h.control
  openFrames := (List.dropWhile_suffix _).trans h.openFrames
  busy := h.busy
  current := h.current
  drops := by
    obtain ⟨k, dropped, length⟩ := h.drops
    obtain ⟨k', dropped', length'⟩ := tested_drops b sp
    refine ⟨k + k', by rw [dropped', dropped, satAdd_satAdd], ?_⟩
    have tx : (b.tested sp).tx = b.tx := rfl
    rw [tx]
    omega

end PortSent

theorem Chosen.portSent {p : Port} {s t : State} (h : Chosen p s t) : PortSent s.ports[p] t.ports[p] := by
  cases h with
  | nothing => exact .refl _
  | motion _ free current live _ _ =>
    rw [State.withPort_port_self]
    exact {
      frame := rfl, control := List.suffix_rfl, openFrames := List.suffix_rfl
      busy := fun busy => absurd free busy
      current := .inr ⟨_, _, _, current, live, rfl, rfl⟩
      drops := ⟨0, (satAdd_zero _).symm, by rw [free]; rfl⟩ }
  | control _ free _ queue _ =>
    rw [State.withPort_port_self]
    exact {
      frame := rfl, control := queue ▸ List.suffix_cons .., openFrames := List.suffix_rfl
      busy := fun busy => absurd free busy, current := .inl rfl
      drops := ⟨0, (satAdd_zero _).symm, by rw [free]; rfl⟩ }
  | openHead _ free _ queue _ =>
    rw [State.withPort_port_self]
    exact {
      frame := rfl, control := List.suffix_rfl, openFrames := queue ▸ List.suffix_cons ..
      busy := fun busy => absurd free busy, current := .inl rfl
      drops := ⟨0, (satAdd_zero _).symm, by rw [free, queue]; rfl⟩ }

theorem schedulePort_of_down {p : Port} {s : State} (down : s.portSpeed p = none) : schedulePort p s = s := by
  rw [schedulePort, testHeads_of_down down, chooseFrame_of_not_ready (.inl down), testHeads_of_down down]

theorem schedulePort_port (p : Port) (s : State) : PortSent s.ports[p] (schedulePort p s).ports[p] := by
  cases up : s.portSpeed p with
  | none =>
    rw [schedulePort_of_down up]
    exact .refl _
  | some sp =>
    have chosen := (chooseFrame_chosen p (testHeads p s)).portSent
    rw [testHeads_port_self up] at chosen
    have kept : Sending s (chooseFrame p (testHeads p s)) := (Sending.testHeads p s).trans (Sending.chooseFrame ..)
    rw [schedulePort, testHeads_port_self ((kept.portSpeed p).trans up)]
    exact (chosen.after_test sp).before_test sp

theorem settleEgress_port (p : Port) (s : State) : PortSent s.ports[p] (settleEgress s).ports[p] := by
  obtain ⟨u, _, found, _, left⟩ := settleEgress_visit s p
  rw [left, ← found]
  exact schedulePort_port p u

/-! ### Slots and masters under the schedulers -/

/-- A reply that left takes its master out of REPLY_DUE. -/
theorem Master.replyLeft_phase {e e' : Master} (due : e.phase = .replyDue) (h : e.replyLeft = some e') :
    e'.phase = .idle := by
  rw [Master.replyLeft, if_pos due] at h
  split at h
  · cases h
  · cases h; rfl

theorem State.withSlot_slot (s : State) (i j : Slot) (c : SlotCell) :
    (s.withSlot i c).slots[j] = if j = i then c else s.slots[j] := s.modSlot_get i j fun _ => c

theorem SlotCell.withQueue_queue (c : SlotCell) (n k : LegNo) (q : List HoldEntry) :
    (c.withQueue n q).queue k = if k = n then q else c.queue k := by
  cases n <;> cases k <;> rfl

/-- A frame of class `cls` stands on a control queue whose frames no gap can hold. -/
def State.Removable (s : State) (cls : ControlClass) : Prop :=
  ∃ p : Port, ∃ sp, s.portSpeed p = some sp ∧ (s.ports[p]).longestOpen < wireTime sp controlFrameLength ∧
    ∃ f ∈ (s.ports[p]).controlQueue, f.cls = cls

/-- What the schedulers can do to slots and masters: queues from their heads on, and what the removal of control frames
does. -/
structure Scheduled (s t : State) : Prop extends Sending s t where
  frame : t = { s with ports := t.ports, slots := t.slots, masters := t.masters }
  control : ∀ p : Port, (t.ports[p]).controlQueue <:+ (s.ports[p]).controlQueue
  queue : ∀ (i : Slot) (n : LegNo), (t.slots[i]).queue n <:+ (s.slots[i]).queue n
  noticed : ∀ i : Slot, t.recordAt i = s.recordAt i ∨
    s.Removable (.notice (s.streamOf i)) ∧ t.recordAt i = (s.recordAt i).map markLost
  masters : ∀ m : MasterIndex, t.masters[m] = s.masters[m] ∨
    ∃ e, s.masters[m] = some e ∧ e.phase = .replyDue ∧ s.Removable (.reply m) ∧ t.masters[m] = e.replyLeft

namespace Scheduled

variable {s t u : State}

theorem refl (s : State) : Scheduled s s :=
  { Sending.refl s with
    frame := rfl, control := fun _ => List.suffix_rfl, queue := fun _ _ => List.suffix_rfl
    noticed := fun _ => .inl rfl, masters := fun _ => .inl rfl }

theorem removable (h : Scheduled s t) {cls : ControlClass} (k : t.Removable cls) : s.Removable cls := by
  obtain ⟨p, sp, up, short, f, hf, hc⟩ := k
  exact ⟨p, sp, (h.portSpeed p).symm.trans up, h.longestOpen p ▸ short, f, (h.control p).subset hf, hc⟩

theorem trans (h : Scheduled s t) (k : Scheduled t u) : Scheduled s u :=
  { h.toSending.trans k.toSending with
    frame := by
      have first := h.frame
      have second := k.frame
      rw [second, first]
    control := fun p => (k.control p).trans (h.control p)
    queue := fun i n => (k.queue i n).trans (h.queue i n)
    noticed := fun i => by
      have stream : t.streamOf i = s.streamOf i := by rw [State.streamOf, State.streamOf, h.reuse i]
      rcases h.noticed i with same | ⟨lost, marked⟩
      · rcases k.noticed i with same' | ⟨lost', marked'⟩
        · exact .inl (same'.trans same)
        · exact .inr ⟨h.removable (stream ▸ lost'), by rw [marked', same]⟩
      · refine .inr ⟨lost, ?_⟩
        rcases k.noticed i with same' | ⟨_, marked'⟩
        · rw [same', marked]
        · rw [marked', marked, Option.map_map]
          rfl
    masters := fun m => by
      rcases h.masters m with same | ⟨e, he, due, gone, left⟩
      · rcases k.masters m with same' | ⟨e, he, due, gone, left⟩
        · exact .inl (same'.trans same)
        · exact .inr ⟨e, same ▸ he, due, h.removable gone, left⟩
      · refine .inr ⟨e, he, due, gone, ?_⟩
        rcases k.masters m with same' | ⟨e', he', due', _, _⟩
        · exact same'.trans left
        · rw [Master.replyLeft_phase due (left.symm.trans he')] at due'
          cases due' }

theorem testHeads (p : Port) (s : State) : Scheduled s (Machine.testHeads p s) := by
  cases up : s.portSpeed p with
  | none =>
    rw [testHeads_of_down up]
    exact refl s
  | some sp =>
    have removable : ∀ cls, ((s.ports[p]).unfit sp).any (fun f => f.cls == cls) = true → s.Removable cls := by
      intro cls some
      obtain ⟨f, hf, hc⟩ := List.any_eq_true.1 some
      unfold PortState.unfit at hf
      split at hf
      · next short => exact ⟨p, sp, up, short, f, hf, beq_iff_eq.1 hc⟩
      · cases hf
    have slot : ∀ i : Slot, (Machine.testHeads p s).slots[i] =
        { s.slots[i] with
          record := (s.recordAt i).map fun r => r.losing ((s.ports[p]).unfit sp) (s.streamOf i) } := fun i => by
      rw [testHeads_eq up]
      exact discardAll_slot _ s i
    have master : ∀ m : MasterIndex, (Machine.testHeads p s).masters[m] =
        masterLosing s.masters[m] ((s.ports[p]).unfit sp) m := fun m => by
      rw [testHeads_eq up]
      exact discardAll_master _ s m
    exact {
      Sending.testHeads p s with
      frame := testHeads_frame
      control := fun q => by
        by_cases h : q = p
        · subst h
          rw [testHeads_port_self up]
          exact PortSent.tested_control ..
        · rw [testHeads_port_ne h]
      queue := fun i n => by
        rw [slot i]
        cases n <;> exact List.suffix_rfl
      noticed := fun i => by
        have record : (Machine.testHeads p s).recordAt i =
            (s.recordAt i).map fun r => r.losing ((s.ports[p]).unfit sp) (s.streamOf i) :=
          congrArg SlotCell.record (slot i)
        rw [record]
        by_cases lost : ((s.ports[p]).unfit sp).any (fun f => f.cls == .notice (s.streamOf i)) = true
        · refine .inr ⟨removable _ lost, ?_⟩
          simp only [Record.losing, if_pos lost]
        · refine .inl ?_
          simp only [Record.losing, if_neg lost, Option.map_id']
      masters := fun m => by
        rw [master m, masterLosing]
        split
        · next gone =>
          cases he : s.masters[m] with
          | none => exact .inl rfl
          | some e =>
            by_cases due : e.phase = .replyDue
            · exact .inr ⟨e, rfl, due, removable _ gone, rfl⟩
            · exact .inl (if_neg due)
        · exact .inl rfl }

theorem chooseFrame (p : Port) (s : State) : Scheduled s (Machine.chooseFrame p s) := by
  have sending := Sending.chooseFrame p s
  have chosen := chooseFrame_chosen p s
  have port := chosen.portSent
  have other := fun q => chosen.port_ne (q := q)
  generalize Machine.chooseFrame p s = t at *
  have control : ∀ q : Port, (t.ports[q]).controlQueue <:+ (s.ports[q]).controlQueue := fun q => by
    by_cases h : q = p
    · subst h
      exact port.control
    · rw [other q h]
  cases chosen with
  | nothing => exact refl s
  | motion up free current live queue inside =>
    rename_i sp w e rest
    have cell : ∀ i : Slot,
        (s.withSlot w.slot ((s.slots[w.slot]).withQueue w.leg rest)).slots[i] =
          if i = w.slot then (s.slots[w.slot]).withQueue w.leg rest else s.slots[i] := fun i => s.withSlot_slot ..
    exact {
      sending with
      frame := rfl, control := control
      queue := fun i n => by
        show ((s.withSlot w.slot ((s.slots[w.slot]).withQueue w.leg rest)).slots[i]).queue n <:+ _
        rw [cell i]
        split
        · next h =>
          subst h
          rw [SlotCell.withQueue_queue]
          split
          · next h => rw [h, queue]; exact List.suffix_cons ..
          · exact List.suffix_rfl
        · exact List.suffix_rfl
      noticed := fun i => by
        refine .inl ?_
        show ((s.withSlot w.slot ((s.slots[w.slot]).withQueue w.leg rest)).slots[i]).record = _
        rw [cell i]
        split
        · next h => subst h; rfl
        · rfl
      masters := fun m => .inl rfl }
  | control => exact {
      sending with
      frame := rfl, control := control, queue := fun _ _ => List.suffix_rfl, noticed := fun _ => .inl rfl
      masters := fun m => .inl rfl }
  | openHead => exact {
      sending with
      frame := rfl, control := control, queue := fun _ _ => List.suffix_rfl, noticed := fun _ => .inl rfl
      masters := fun m => .inl rfl }

theorem schedulePort (p : Port) (s : State) : Scheduled s (Machine.schedulePort p s) :=
  ((testHeads p s).trans (chooseFrame ..)).trans (testHeads ..)

/-- The schedulers' whole effect on slots and masters. -/
theorem settleEgress (s : State) : Scheduled s (Machine.settleEgress s) := foldl_related refl trans schedulePort _ s

end Scheduled

/-! ### The frame that leaves a hold queue -/

section HoldQueue

variable {p : Port} {s : State} {i : Slot} {n : LegNo}

theorem testHeads_queue (p : Port) (s : State) (i : Slot) (n : LegNo) :
    ((testHeads p s).slots[i]).queue n = (s.slots[i]).queue n := by
  cases up : s.portSpeed p with
  | none => rw [testHeads_of_down up]
  | some sp =>
    have slot := discardAll_slot ((s.ports[p]).unfit sp) s i
    have tested : (testHeads p s).slots[i] = (discardAll ((s.ports[p]).unfit sp) s).slots[i] := by
      rw [testHeads_eq up]
      rfl
    rw [tested, slot]
    cases n <;> rfl

/-- A choice that takes a frame from the hold queue of a leg starts it. -/
theorem Chosen.queue_or {t : State} (h : Chosen p s t) :
    (t.slots[i]).queue n = (s.slots[i]).queue n ∨
      (s.ports[p]).tx = .free ∧ ∃ f endAt, (t.ports[p]).tx = .busy (.window i n) f endAt := by
  cases h with
  | nothing => exact .inl rfl
  | motion _ free _ _ _ _ =>
    rename_i sp w e rest _ _ _ _ _
    by_cases h : i = w.slot ∧ n = w.leg
    · obtain ⟨rfl, rfl⟩ := h
      exact .inr ⟨free, e.frame, _, by rw [State.withPort_port_self]⟩
    · refine .inl ?_
      show ((s.withSlot w.slot ((s.slots[w.slot]).withQueue w.leg rest)).slots[i]).queue n = _
      rw [State.withSlot_slot]
      split
      · next same =>
        subst same
        rw [SlotCell.withQueue_queue, if_neg fun leg => h ⟨rfl, leg⟩]
      · rfl
  | control => exact .inl rfl
  | openHead => exact .inl rfl

theorem schedulePort_queue_or (p : Port) (s : State) (i : Slot) (n : LegNo) :
    ((schedulePort p s).slots[i]).queue n = (s.slots[i]).queue n ∨
      (s.ports[p]).tx = .free ∧ ∃ f endAt, ((schedulePort p s).ports[p]).tx = .busy (.window i n) f endAt := by
  have tx : ∀ t : State, ((testHeads p t).ports[p]).tx = (t.ports[p]).tx := fun t => by
    cases up : t.portSpeed p with
    | none => rw [testHeads_of_down up]
    | some sp => rw [testHeads_port_self up]; rfl
  have chosen := (chooseFrame_chosen p (testHeads p s)).queue_or (i := i) (n := n)
  rwa [tx, testHeads_queue, ← testHeads_queue p (chooseFrame p (testHeads p s)), ← tx (chooseFrame p (testHeads p s))]
    at chosen

/-- A walk over ports that changes a hold queue changes it at one of its visits. -/
theorem foldl_schedulePort_queue {l : List Port} (nodup : l.Nodup) (s : State) (i : Slot) (n : LegNo) :
    ((l.foldl (fun t p => schedulePort p t) s).slots[i]).queue n = (s.slots[i]).queue n ∨
      ∃ p ∈ l, (s.ports[p]).tx = .free ∧
        ∃ f endAt, ((l.foldl (fun t p => schedulePort p t) s).ports[p]).tx = .busy (.window i n) f endAt := by
  induction l generalizing s with
  | nil => exact .inl rfl
  | cons p l ih =>
    obtain ⟨notIn, nodup⟩ := List.nodup_cons.1 nodup
    rw [List.foldl_cons]
    rcases ih nodup (schedulePort p s) with kept | ⟨q, hq, free, f, endAt, started⟩
    · rw [kept]
      rcases schedulePort_queue_or p s i n with kept | ⟨free, f, endAt, started⟩
      · exact .inl kept
      · refine .inr ⟨p, List.mem_cons_self, free, f, endAt, ?_⟩
        have last := foldl_other (get := fun s (p : Port) => s.ports[p]) (f := schedulePort)
          (fun _ _ _ h => schedulePort_port_ne h) notIn (schedulePort p s)
        rw [show (l.foldl (fun t p => schedulePort p t) (schedulePort p s)).ports[p] = _ from last]
        exact started
    · have apart : q ≠ p := fun same => notIn (same ▸ hq)
      rw [schedulePort_port_ne apart] at free
      exact .inr ⟨q, List.mem_cons_of_mem _ hq, free, f, endAt, started⟩

end HoldQueue

/-- Settles O18: ports, hold queues, records and masters, each by what the walk leaves of it. -/
theorem schedulersTouchOnlyEgress : Obligations.SchedulersTouchOnlyEgress := by
  intro s t removed
  have whole : Scheduled s t := Scheduled.settleEgress s
  refine ⟨whole.frame, fun p => ?_, fun i => ⟨whole.reuse i, fun n => ⟨whole.queue i n, ?_⟩, whole.noticed i⟩,
    whole.masters⟩
  · have port : PortSent s.ports[p] t.ports[p] := settleEgress_port p s
    exact ⟨port.frame, port.control, port.openFrames, port.busy, port.current, port.drops⟩
  · rcases foldl_schedulePort_queue (List.nodup_finRange 8) s i n with kept | ⟨p, _, started⟩
    · exact .inl kept
    · obtain ⟨free, f, endAt, busy⟩ := started
      exact .inr ⟨p, f, endAt, free, busy⟩

end Sys2Proof.Machine

/-! SUPPORT. Answers (chapter 05) and the switch (chapters 01 and 03): what an answer leaves alone, the switch in its
four parts, and the base-cycle start. -/

namespace Sys2Proof.Machine

/-! ### What an answer changes -/

/-- `t` differs from `s` in masters and control queues alone. -/
structure Told (s t : State) : Prop where
  frame : t = { s with ports := t.ports, masters := t.masters }
  port : ∀ q : Port, t.ports[q] = { s.ports[q] with controlQueue := (t.ports[q]).controlQueue }

namespace Told

variable {s t u : State}

theorem refl (s : State) : Told s s := ⟨rfl, fun _ => rfl⟩

theorem trans (h : Told s t) (k : Told t u) : Told s u where
  frame := by
    have first := h.frame
    have second := k.frame
    rw [second, first]
  port q := by rw [k.port q, h.port q]

theorem slots (h : Told s t) : t.slots = s.slots := by rw [h.frame]

theorem store (h : Told s t) : t.store = s.store := by rw [h.frame]

theorem stations (h : Told s t) : t.stations = s.stations := by rw [h.frame]

theorem recordAt (h : Told s t) (i : Slot) : t.recordAt i = s.recordAt i := by
  rw [State.recordAt, h.slots]
  rfl

theorem streamOf (h : Told s t) (i : Slot) : t.streamOf i = s.streamOf i := by
  rw [State.streamOf, h.slots]
  rfl

theorem calendar (h : Told s t) (q : Port) : (t.ports[q]).calendar = (s.ports[q]).calendar := by rw [h.port q]

theorem quiet (h : Told s t) : Quiet s t := by
  have frame := h.frame
  exact {
    pending := by rw [frame], resetAsserted := by rw [frame], straps := by rw [frame], lines := by rw [frame]
    time := by rw [frame], beacon := by rw [frame], admission := by rw [frame], inbox := by rw [frame]
    switchAnswers := by rw [frame], ageing := by rw [frame], freeIndex := by rw [frame]
    generation := by rw [frame], pendingH := by rw [frame]
    link := fun q => by rw [h.port q]
    policy := fun q => by rw [h.port q] }

theorem withMaster (s : State) (m : MasterIndex) (e : Option Master) : Told s (s.withMaster m e) :=
  ⟨rfl, fun _ => rfl⟩

theorem withControl (s : State) (p : Port) (f : ControlFrame) : Told s (s.withControl p f) := by
  refine ⟨rfl, fun q => ?_⟩
  have port := s.modPort_get p q fun ps => { ps with controlQueue := ps.controlQueue ++ [f] }
  rw [show (s.withControl p f).ports[q] = _ from port]
  split
  · next h => subst h; rfl
  · rfl

theorem answered (s : State) (m : MasterIndex) (e : Master) (rq : CurrentRequest) (st : Status) (body : AnswerBody) :
    Told s (s.answered m e rq st body) := by
  unfold State.answered
  split
  · exact (withControl ..).trans (withMaster ..)
  · exact withMaster ..

end Told

/-- An answer of a master: none is owed, or the one of its request. -/
theorem answerMaster_cases (m : MasterIndex) (st : Status) (body : AnswerBody) (s : State) :
    answerMaster m st body s = s ∨ ∃ e rq, s.masters[m] = some e ∧ e.request = some rq ∧
      answerMaster m st body s = s.answered m e rq st body := by
  cases he : s.masters[m] with
  | none => exact .inl (answerMaster_none (fun e h => by rw [he] at h; cases h) st body)
  | some e =>
    cases hr : e.request with
    | none =>
      refine .inl (answerMaster_none (fun e' h => ?_) st body)
      rw [he] at h
      cases h
      exact hr
    | some rq => exact .inr ⟨e, rq, rfl, hr, answerMaster_eq he hr st body⟩

namespace Told

variable {s : State}

theorem answerMaster (m : MasterIndex) (st : Status) (body : AnswerBody) (s : State) :
    Told s (Machine.answerMaster m st body s) := by
  rcases answerMaster_cases m st body s with h | ⟨e, rq, _, _, h⟩
  · rw [h]; exact refl s
  · rw [h]; exact answered ..

theorem answerGranted (i : Slot) (r : Record) (st : RecordState) (s : State) :
    Told s (Machine.answerGranted i r st s) := by
  unfold Machine.answerGranted
  split
  · split
    · exact answerMaster ..
    · exact refl s
  · exact refl s

theorem answerReleased (i : Slot) (n : Nat) (m : MasterIndex) (s : State) :
    Told s (Machine.answerReleased i n m s) := by
  unfold Machine.answerReleased
  split
  · split
    · exact answerMaster ..
    · exact refl s
  · exact refl s

theorem answerCancelled (i : Slot) (n : Nat) (m : MasterIndex) (cause : EndReason) (s : State) :
    Told s (Machine.answerCancelled i n m cause s) := by
  unfold Machine.answerCancelled
  split
  · split
    · exact answerMaster ..
    · exact refl s
  · exact refl s

theorem answerDeferred (m : MasterIndex) (s : State) : Told s (Machine.answerDeferred m s) := by
  unfold Machine.answerDeferred
  split
  · exact refl s
  · split
    · exact answerMaster ..
    · exact answerMaster ..
    · exact answerMaster ..
    all_goals exact refl s

theorem handEnded (n : Nat) (r : Record) (s : State) : Told s (Machine.handEnded n r s) := by
  unfold Machine.handEnded
  split
  · exact withControl ..
  · exact refl s

theorem foldl {α : Type} (f : State → α → State) (h : ∀ s a, Told s (f s a)) (l : List α) (s : State) :
    Told s (l.foldl f s) := by
  induction l generalizing s with
  | nil => exact refl s
  | cons a l ih => exact (h s a).trans (ih _)

end Told

/-! ### The switch in its four parts (R61, R62, R109) -/

section Switch

variable (s : State)

/-- The switch with its heads tested. -/
def State.switched : State := overPorts testHeads (calendarSwitch s)

/-- The switch with its installations. -/
def State.switchInstalled : State := s.installingSlots.foldl (fun t i => installRecord i t) s.switched

/-- The switch with its installations and freed records. -/
def State.switchFreed : State := s.endingSlots.foldl (fun t i => freeEnding i t) s.switchInstalled

theorem takeSwitch_eq :
    takeSwitch s =
      { s.switchFreed.switchAnswers.foldl (fun t m => answerDeferred m t) s.switchFreed with
        switchAnswers := [] } := rfl

theorem switchFreed_quiet : Quiet (calendarSwitch s) s.switchFreed :=
  ((Quiet.overPorts _ (fun p t => Quiet.testHeads p t) (calendarSwitch s)).trans
    (Quiet.foldl _ (fun t i => Quiet.installRecord i t) s.installingSlots _)).trans
    (Quiet.foldl _ (fun t i => Quiet.freeEnding i t) s.endingSlots _)

theorem switchFreed_answers : s.switchFreed.switchAnswers = s.switchAnswers := by
  rw [(switchFreed_quiet s).switchAnswers, calendarSwitch_frame]

theorem State.endingSlots_eq :
    s.endingSlots = (List.finRange 128).filter fun i => (s.recordAt i).any fun r => r.state == .ending := by
  unfold State.endingSlots
  congr 1
  funext i
  cases s.recordAt i <;> rfl

theorem State.installingSlots_eq :
    s.installingSlots = (s.store.changeList.filter fun e => e.leg == .leg0).map StagedLeg.slot := by
  unfold State.installingSlots
  induction s.store.changeList with
  | nil => rfl
  | cons e l ih =>
    by_cases h : e.leg = .leg0 <;> simp [h, ih]

end Switch

theorem installRecord_store (i : Slot) (s : State) : (installRecord i s).store = s.store := by
  unfold installRecord
  split
  · rfl
  · split
    · rw [(Told.answerGranted ..).store]
      split
      · unfold endRecord
        simp only [releaseInstances_store, markRetiring_store]
        rfl
      · rfl
    · rfl

theorem modStation_frame (a : Addr) (f : Station → Station) (s : State) :
    modStation a f s = { s with stations := (modStation a f s).stations } := by
  unfold modStation
  split <;> rfl

theorem lowerHeld_frame (m : MasterIndex) (s : State) :
    lowerHeld m s = { s with masters := (lowerHeld m s).masters } := by
  unfold lowerHeld dropIdleMaster
  split
  · split <;> rfl
  · rfl

/-- A record that becomes FREE changes slots, masters and stations alone. -/
theorem freeRecord_frame (i : Slot) (s : State) :
    freeRecord i s =
      { s with
        slots := (freeRecord i s).slots, masters := (freeRecord i s).masters,
        stations := (freeRecord i s).stations } := by
  unfold freeRecord
  split
  · rfl
  · rw [lowerPin, modStation_frame, lowerPin, modStation_frame, lowerHeld_frame]
    rfl

theorem freeEnding_store (i : Slot) (s : State) : (freeEnding i s).store = s.store := by
  unfold freeEnding
  split
  · rfl
  · next r _ =>
    have freed : (freeRecord i s).store = s.store := by rw [freeRecord_frame]
    have released := (Told.foldl _ (fun t m => Told.answerReleased i (s.streamOf i) m t) r.waiters
      (freeRecord i s)).store
    split
    · exact released.trans freed
    · exact ((Told.handEnded ..).store.trans released).trans freed

theorem takeSwitch_store (s : State) : (takeSwitch s).store = (calendarSwitch s).store := by
  have heads : s.switched.store = (calendarSwitch s).store :=
    overPorts_store _ (fun p t => (Sending.testHeads p t).store) _
  have installed : s.switchInstalled.store = s.switched.store :=
    foldl_keeps State.store _ (fun t i => installRecord_store i t) _ _
  have freed : s.switchFreed.store = s.switchInstalled.store :=
    foldl_keeps State.store _ (fun t i => freeEnding_store i t) _ _
  have answered := (Told.foldl _ (fun t m => Told.answerDeferred m t) s.switchFreed.switchAnswers s.switchFreed).store
  exact answered.trans (freed.trans (installed.trans heads))

end Sys2Proof.Machine

/-! SUPPORT. The time base and its edges (chapter 01): the base-cycle start, the end of the settle period and the
hypercycle boundary. -/

namespace Sys2Proof.Machine

/-! ### The sample of a base-cycle start (R156 to R164) -/

section Start

variable {lines : Vector PhyLines 8} {s : State}

theorem stepLinks_frame (lines : Vector PhyLines 8) (s : State) :
    stepLinks lines s = { s with ports := (stepLinks lines s).ports } := overPorts_frame _ (fun _ _ => rfl) s

theorem stepLinks_policy (lines : Vector PhyLines 8) (s : State) (p : Port) :
    ((stepLinks lines s).ports[p]).policy = (s.ports[p]).policy := by
  rw [stepLinks_port]

/-- The state in which the sample is taken: the base cycle entered, or its start raised before. -/
def State.starting (s : State) : State := if s.time.startDue then s else s.entered

theorem State.startReady_eq_starting (h : s.time.startDue = true ∨ s.AtLastTick) : s.startReady = s.starting := by
  unfold State.starting
  rcases h with due | last
  · rw [if_pos due, State.startReady_of_due (.inl due)]
  · rw [if_neg (by simp [last.2.1]), State.startReady_of_last last]

/-- The state whose links the sample steps: the start taken, the levels of the lines kept. -/
def State.started (s : State) (lines : Vector PhyLines 8) : State :=
  { s.starting with time := { s.starting.time with startDue := false }, lines := lines }

theorem exec_baseCycleStart_eq (hr : s.resetAsserted = false) (h : s.time.startDue = true ∨ s.AtLastTick) :
    exec (.baseCycleStart lines) s =
      .next (settleEgress (overPorts (linkReport s.ports) (stepLinks lines (s.started lines)))) := by
  have ports : s.starting.ports = s.ports := by rw [← State.startReady_eq_starting h, State.startReady_ports]
  rw [exec_baseCycleStart_of_start hr h, State.startReady_eq_starting h, ← ports]
  rfl

/-- What the start leaves of the state it is taken in, but for the links and what they report. -/
theorem exec_baseCycleStart_quiet (hr : s.resetAsserted = false) (h : s.time.startDue = true ∨ s.AtLastTick) :
    ∃ t, exec (.baseCycleStart lines) s = .next t ∧ Quiet (stepLinks lines (s.started lines)) t :=
  ⟨_, exec_baseCycleStart_eq hr h,
    (Quiet.overPorts _ (fun q t => Quiet.linkReport s.ports q t) _).trans (Quiet.settleEgress _)⟩

/-- The steps of the links look at the ports alone. -/
theorem stepLinks_ports {t : State} (h : t.ports = s.ports) :
    (stepLinks lines t).ports = (stepLinks lines s).ports := by
  refine Vector.ext fun p hp => ?_
  have left := stepLinks_port lines t ⟨p, hp⟩
  have right := stepLinks_port lines s ⟨p, hp⟩
  rw [h] at left
  exact left.trans right.symm

/-- A port's report, by its state before the sample and after (R160). -/
theorem linkReport_eq (before : Vector PortState 8) (p : Port) (s : State) :
    linkReport before p s =
      if (before[p]).link.speed.isSome = true ∧ s.portUp p = false then portDeparts p s
      else if (before[p]).link.speed.isSome = false ∧ s.portUp p = true then portArrivesAtRecords p s
      else s := by
  unfold linkReport
  cases (before[p]).link.speed.isSome <;> cases s.portUp p <;> rfl

/-- A walk whose visits agree with other ones wherever nothing but acts on tables came before. -/
theorem foldl_congr_of_quiet {f g : State → Port → State} {a : State} (quiet : ∀ t p, Quiet t (f t p))
    (same : ∀ t p, Quiet a t → f t p = g t p) (l : List Port) {t : State} (h : Quiet a t) :
    l.foldl f t = l.foldl g t := by
  induction l generalizing t with
  | nil => rfl
  | cons p l ih => rw [List.foldl_cons, List.foldl_cons, ← same t p h, ih (h.trans (quiet t p))]

end Start

/-- Settles O5: the start from the chain and from where it was raised, its reports port by port, and the idle tick. -/
theorem baseCycleStartAdvancesTheChain : Obligations.BaseCycleStartAdvancesTheChain := by
  refine ⟨fun lines s hr last => ?_, fun lines s hr due => ?_, fun lines s hr h => ?_, fun s empty hr idle => ?_⟩
  · obtain ⟨t, taken, quiet⟩ := exec_baseCycleStart_quiet (lines := lines) hr (.inr last)
    have entered : s.starting = s.entered := if_neg (by simp [last.2.1])
    rw [stepLinks_frame, State.started, entered] at quiet
    refine ⟨t, taken, quiet.time, quiet.ageing, quiet.lines, quiet.straps, quiet.beacon, quiet.admission, quiet.inbox,
      quiet.generation, quiet.pendingH, fun p => ?_⟩
    rw [quiet.policy p, stepLinks_policy]
    rfl
  · obtain ⟨t, taken, quiet⟩ := exec_baseCycleStart_quiet (lines := lines) hr (.inl due)
    have raised : s.starting = s := if_pos due
    rw [stepLinks_frame, State.started, raised] at quiet
    refine ⟨t, taken, quiet.time, quiet.ageing, quiet.lines, quiet.straps, quiet.beacon, quiet.admission, quiet.inbox,
      quiet.generation, quiet.pendingH, fun p => ?_⟩
    rw [quiet.policy p, stepLinks_policy]
  · intro u sampled reported
    have stepped : stepLinks lines (s.started lines) = sampled := by
      rw [stepLinks_frame, stepLinks_ports (s := u) (t := s.started lines) rfl]
      rfl
    have report : ∀ t p, Quiet sampled t → linkReport s.ports p t = reported p t := by
      intro t p quiet
      rw [linkReport_eq, quiet.portUp p]
      rfl
    rw [exec_baseCycleStart_eq hr h, stepped, overPorts,
      foldl_congr_of_quiet (fun t p => Quiet.linkReport s.ports p t) report _ (Quiet.refl sampled)]
  · have taken : step s = .next (tickPasses s) := by
      simp only [step, empty, idleStep, hr, idle, Bool.false_eq_true, if_false]
    obtain ⟨start, boundary⟩ := State.clock_of_idle idle
    refine ⟨fun last => ?_, fun inside => ?_⟩
    · rw [taken, tickPasses_of_last ⟨last, start, boundary⟩]
    · rw [taken, tickPasses_of_inside inside]

/-! ### The switch at the edges (R5, R10, R61, R63) -/

section Edge

variable {s : State}

theorem exec_hypercycleBoundary_of_ready (hr : s.resetAsserted = false)
    (due : s.startReady.time.boundaryDue = .hypercycle) :
    exec .hypercycleBoundary s =
      .next (settleEgress (captureBeacon (takeSwitch
        { s.startReady with
          time :=
            { s.startReady.time with
              boundaryDue := .none, hypercycle := s.startReady.time.hypercycle + 1 } }))) := by
  simp only [exec, execHypercycleBoundary, hr, due, Bool.false_eq_true, if_false, if_true]

theorem exec_endOfSettlePeriod_of_ready (hr : s.resetAsserted = false)
    (due : s.startReady.time.boundaryDue = .endOfSettle) :
    exec .endOfSettlePeriod s =
      .next (settleEgress (captureBeacon (takeSwitch
        { s.startReady with
          time := { s.startReady.time with boundaryDue := .none, b := 0, hypercycle := 0 } }))) := by
  simp only [exec, execEndOfSettlePeriod, hr, due, Bool.false_eq_true, if_false, if_true]

theorem State.startReady_of_boundary {d : BoundaryDue} (due : s.time.boundaryDue = d) (h : d ≠ .none) :
    s.startReady = s := State.startReady_of_due (.inr (due ▸ h))

theorem exec_hypercycleBoundary_of_due (hr : s.resetAsserted = false) (due : s.time.boundaryDue = .hypercycle) :
    exec .hypercycleBoundary s =
      .next (settleEgress (captureBeacon (takeSwitch
        { s with time := { s.time with boundaryDue := .none, hypercycle := s.time.hypercycle + 1 } }))) := by
  have ready := State.startReady_of_boundary due nofun
  rw [exec_hypercycleBoundary_of_ready hr (by rw [ready, due]), ready]

/-- `s` in hypercycle 0, before its switch (R10). -/
def State.opened (s : State) : State :=
  { s with time := { s.time with boundaryDue := .none, b := 0, hypercycle := 0 } }

theorem exec_endOfSettlePeriod_of_due (hr : s.resetAsserted = false) (due : s.time.boundaryDue = .endOfSettle) :
    exec .endOfSettlePeriod s = .next (settleEgress (captureBeacon (takeSwitch s.opened))) := by
  have ready := State.startReady_of_boundary due nofun
  rw [exec_endOfSettlePeriod_of_ready hr (by rw [ready, due]), ready]
  rfl

/-! At the last tick of a base cycle an edge acts on the base cycle that begins there (assumption 10). -/

theorem exec_hypercycleBoundary_of_last (hr : s.resetAsserted = false) (last : s.AtLastTick)
    (due : s.entered.time.boundaryDue = .hypercycle) :
    exec .hypercycleBoundary s = exec .hypercycleBoundary s.entered := by
  have ready := State.startReady_of_last last
  rw [exec_hypercycleBoundary_of_ready hr (by rw [ready, due]), ready,
    exec_hypercycleBoundary_of_due (s := s.entered) hr due]

theorem exec_endOfSettlePeriod_of_last (hr : s.resetAsserted = false) (last : s.AtLastTick)
    (due : s.entered.time.boundaryDue = .endOfSettle) :
    exec .endOfSettlePeriod s = exec .endOfSettlePeriod s.entered := by
  have ready := State.startReady_of_last last
  rw [exec_endOfSettlePeriod_of_ready hr (by rw [ready, due]), ready,
    exec_endOfSettlePeriod_of_due (s := s.entered) hr due]
  rfl

theorem State.switchChanges_iff :
    s.switchChanges = true ↔
      (∃ p : Port, ∃ w ∈ (s.ports[p]).calendar, w.retiring = true) ∨ s.store.changeList ≠ [] ∨
        s.store.pendingH.getD s.time.hExp ≠ s.time.hExp := by
  simp [State.switchChanges, State.anyRetiring, State.switchH, or_assoc]

/-- The time base, the store and the admission unit that an edge leaves (R5, R61, R63). -/
theorem takeSwitch_captured (u : State) :
    (captureBeacon (takeSwitch u)).time = { u.time with hExp := u.switchH } ∧
      (captureBeacon (takeSwitch u)).store =
        { changeList := []
          generation := if u.switchChanges then u.store.generation + 1 else u.store.generation
          pendingH := none } ∧
      (captureBeacon (takeSwitch u)).beacon = some
        { unit := u.straps.unit, hypercycle := u.time.hypercycle
          generation := if u.switchChanges then u.store.generation + 1 else u.store.generation
          cyc := u.straps.cyc, hExp := u.switchH, held := u.admission.held
          queueLength := u.admission.queue.length } := by
  have freed := switchFreed_quiet u
  have answers := (Told.foldl _ (fun t m => Told.answerDeferred m t) u.switchFreed.switchAnswers u.switchFreed).quiet
  have quiet := freed.trans answers
  have time : (takeSwitch u).time = { u.time with hExp := u.switchH } := by
    rw [takeSwitch_eq, quiet.time, calendarSwitch_frame]
  have store := takeSwitch_store u
  rw [calendarSwitch_frame] at store
  have straps : (takeSwitch u).straps = u.straps := by rw [takeSwitch_eq, quiet.straps, calendarSwitch_frame]
  have admission : (takeSwitch u).admission = (calendarSwitch u).admission := by rw [takeSwitch_eq, quiet.admission]
  refine ⟨time, store, ?_⟩
  rw [captureBeacon, time, store, straps, admission, calendarSwitch_frame]

/-- The switch at which nothing retires, is staged or ends leaves every calendar as it is (R10). -/
theorem takeSwitch_calendar_of_idle {u : State} (noLeg : u.store.changeList = []) (noH : u.store.pendingH = none)
    (notRetiring : ∀ p : Port, ∀ w ∈ (u.ports[p]).calendar, w.retiring = false) (noEnding : u.endingSlots = [])
    (p : Port) : ((takeSwitch u).ports[p]).calendar = (u.ports[p]).calendar := by
  have noInstall : u.installingSlots = [] := by rw [State.installingSlots, noLeg]; rfl
  have freed : u.switchFreed = u.switched := by
    rw [State.switchFreed, State.switchInstalled, noEnding, noInstall, List.foldl_nil, List.foldl_nil]
  have answers := Told.foldl _ (fun t m => Told.answerDeferred m t) u.switchFreed.switchAnswers u.switchFreed
  have heads : Sending (calendarSwitch u) u.switched := Sending.foldl _ (fun t q => Sending.testHeads q t) _ _
  have noStaged : u.stagedFor p = [] := by rw [State.stagedFor, noLeg]; rfl
  calc ((takeSwitch u).ports[p]).calendar
    _ = (u.switchFreed.ports[p]).calendar := answers.calendar p
    _ = ((calendarSwitch u).ports[p]).calendar := by rw [freed, heads.calendar p]
    _ = (u.ports[p]).calendar.filter fun w => !w.retiring := by rw [calendarSwitch_port, noStaged, noH]; rfl
    _ = (u.ports[p]).calendar := List.filter_eq_self.2 fun w hw => by rw [notRetiring p w hw]; rfl

end Edge

/-- Settles O9: nothing retiring and nothing staged leave the calendars, and no record is ENDING to be freed. -/
theorem endOfSettleOpensHypercycleZero : Obligations.EndOfSettleOpensHypercycleZero := by
  refine ⟨fun s hr due noLeg noH notRetiring noEnding => ?_, fun s hr last one => ?_⟩
  · obtain ⟨time, store, beacon⟩ := takeSwitch_captured s.opened
    have sent := Sending.settleEgress (captureBeacon (takeSwitch s.opened))
    have sameH : s.opened.switchH = s.time.hExp := by
      rw [State.switchH, State.opened, noH]
      rfl
    have unchanged : ¬s.opened.switchChanges = true := by
      rw [State.switchChanges_iff]
      rintro (⟨p, w, hw, retiring⟩ | staged | changed)
      · rw [notRetiring p w hw] at retiring
        cases retiring
      · exact staged noLeg
      · exact changed sameH
    have ending : s.opened.endingSlots = [] := by
      rw [State.endingSlots_eq, List.filter_eq_nil_iff]
      intro i _ ends
      obtain ⟨r, hr, state⟩ := Option.any_eq_true _ _ |>.1 ends
      exact noEnding i r hr (beq_iff_eq.1 state)
    refine ⟨_, exec_endOfSettlePeriod_of_due hr due, ?_, ?_, fun p => ?_, ?_⟩
    · rw [sent.time, time, sameH]
      rfl
    · rw [sent.store, store, if_neg unchanged]
      show ({ changeList := [], generation := s.store.generation, pendingH := none } : CalendarStore) = s.store
      rw [← noLeg, ← noH]
    · rw [sent.calendar p]
      show ((takeSwitch s.opened).ports[p]).calendar = _
      rw [takeSwitch_calendar_of_idle (u := s.opened) noLeg noH notRetiring ending p]
      rfl
    · rw [sent.beacon, beacon, sameH, if_neg unchanged]
      rfl
  · have due : s.entered.time.boundaryDue = .endOfSettle := if_pos one
    exact ⟨exec_endOfSettlePeriod_of_last hr last due, due, by simp [State.settling, due]⟩

/-- Settles O10: the clock and the store at a boundary, the base cycle it acts on, its parts in order, and the deferred
answers. -/
theorem hypercycleBoundaryCountsAndSwitches : Obligations.HypercycleBoundaryCountsAndSwitches := by
  refine ⟨fun s hr due => ?_, fun s hr last settled wraps => ?_, fun s hr due => ?_, fun s m e cr he hr => ?_⟩
  · obtain ⟨time, store, beacon⟩ := takeSwitch_captured
      { s with time := { s.time with boundaryDue := .none, hypercycle := s.time.hypercycle + 1 } }
    have sent := Sending.settleEgress (captureBeacon (takeSwitch
      { s with time := { s.time with boundaryDue := .none, hypercycle := s.time.hypercycle + 1 } }))
    refine ⟨_, exec_hypercycleBoundary_of_due hr due, sent.time.trans time, ?_⟩
    rw [sent.store, sent.beacon, store, beacon]
    have changes := State.switchChanges_iff (s := { s with
      time := { s.time with boundaryDue := .none, hypercycle := s.time.hypercycle + 1 } })
    exact ⟨rfl, rfl, fun h => if_pos (changes.2 h), fun h => if_neg (mt changes.1 h), rfl⟩
  · have due : s.entered.time.boundaryDue = .hypercycle := by simp [State.entered, settled, wraps]
    exact ⟨exec_hypercycleBoundary_of_last hr last due, due⟩
  · intro u switched installed freed answers
    rw [exec_hypercycleBoundary_of_due hr due, takeSwitch_eq, switchFreed_answers, State.switchFreed,
      State.switchInstalled, State.endingSlots_eq, State.installingSlots_eq]
    rfl
  · refine ⟨fun n awaits => ?_, fun target cancelled ended awaits => ?_, fun awaits => ?_⟩ <;>
      simp only [answerDeferred, he, awaits, answerMaster_eq he hr]

end Sys2Proof.Machine

/-! SUPPORT. Records that become FREE or are installed (chapters 02, 03 and 09): the held count and the pins as
equations, and the switch read at one slot. -/

namespace Sys2Proof.Machine

/-! ### The held count and the pins of a freed record (R44, R45, R98, R171) -/

section Free

variable {s : State}

/-- The owner's entry after one record less (R44, R98). -/
def Master.fewer (e : Master) : Option Master :=
  if e.phase = .idle ∧ e.held ≤ 1 then none else some { e with held := e.held - 1 }

theorem lowerHeld_eq (m : MasterIndex) (s : State) :
    lowerHeld m s = s.withMaster m ((s.masters[m]).bind Master.fewer) := by
  have last : ∀ e : Master, (e.phase = .idle ∧ e.held - 1 = 0) = (e.phase = .idle ∧ e.held ≤ 1) := fun e =>
    propext (and_congr_right' (by omega))
  cases he : s.masters[m] with
  | none =>
    have hm : s.masters[m.val] = none := he
    simp only [lowerHeld, dropIdleMaster, State.modMaster, Option.map_none, Option.bind_none, hm, Fin.getElem_fin,
      Vector.getElem_set_self]
    rfl
  | some e =>
    have hm : s.masters[m.val] = some e := he
    simp only [lowerHeld, dropIdleMaster, State.modMaster, State.putMaster, Option.map_some, Option.bind_some, hm,
      Fin.getElem_fin, Vector.getElem_set_self, last, Master.fewer]
    split
    · simp [State.withMaster]
    · rfl

theorem modStation_eq (distinct : s.AddressesDistinct) (a : Addr) (f : Station → Station) :
    modStation a f s =
      { s with stations := s.stations.map (Option.map fun x => if x.addr = a then f x else x) } := by
  have same : ∀ x : Option Station, (∀ e, x = some e → e.addr ≠ a) →
      x.map (fun x => if x.addr = a then f x else x) = x := by
    rintro (_ | e) h
    · rfl
    · exact congrArg some (if_neg (h e rfl))
  have stations : (modStation a f s).stations =
      s.stations.map (Option.map fun x => if x.addr = a then f x else x) := by
    refine Vector.ext fun k hk => ?_
    rw [Vector.getElem_map]
    unfold modStation
    split
    · next j place =>
      obtain ⟨e, he, ha⟩ : ∃ e, s.stations[j] = some e ∧ e.addr = a := by
        have meets := List.find?_some place
        split at meets
        · next e he => exact ⟨e, he, by simpa using meets⟩
        · cases meets
      have get := s.putStation_get j ⟨k, hk⟩ ((s.stations[j]).map f)
      refine Eq.trans get ?_
      split
      · next h =>
        subst h
        have hj : s.stations[k] = some e := he
        rw [he, hj]
        simp [ha]
      · next h =>
        refine (same _ fun e' he' ha' => h ?_).symm
        exact distinct ⟨k, hk⟩ j e' e he' he (ha'.trans ha.symm)
    · next unknown =>
      exact (same _ fun e he => State.placeOf_none.1 unknown ⟨k, hk⟩ e he).symm
  rw [modStation_frame, stations]

/-- The station entry under one pin less for address `a` (R171). -/
def Station.unpinnedFrom (a : Addr) (x : Station) : Station :=
  { x with pins := x.pins - if x.addr = a then 1 else 0 }

theorem lowerPin_eq (distinct : s.AddressesDistinct) (a : Addr) :
    lowerPin a s = { s with stations := s.stations.map (Option.map (Station.unpinnedFrom a)) } := by
  rw [lowerPin, modStation_eq distinct]
  congr 3
  funext x
  unfold Station.unpinnedFrom
  split <;> rfl

theorem State.AddressesDistinct.map {f : Station → Station} (distinct : s.AddressesDistinct)
    (hf : ∀ x, (f x).addr = x.addr) :
    State.AddressesDistinct { s with stations := s.stations.map (Option.map f) } := by
  intro j k a b ha hb same
  simp only [Fin.getElem_fin, Vector.getElem_map, Option.map_eq_some_iff] at ha hb
  obtain ⟨x, hx, rfl⟩ := ha
  obtain ⟨y, hy, rfl⟩ := hb
  exact distinct j k x y hx hy (by rwa [hf, hf] at same)

theorem freeRecord_masters {i : Slot} {r : Record} (hr : s.recordAt i = some r) :
    (freeRecord i s).masters = s.masters.set r.owner ((s.masters[r.owner]).bind Master.fewer) := by
  simp only [freeRecord, hr, lowerPin]
  rw [modStation_frame, modStation_frame, lowerHeld_eq]
  rfl

theorem lowerPin_lowerPin_eq (distinct : s.AddressesDistinct) (a b : Addr) :
    lowerPin b (lowerPin a s) =
      { s with stations := s.stations.map (Option.map fun x => (x.unpinnedFrom a).unpinnedFrom b) } := by
  rw [lowerPin_eq distinct,
    lowerPin_eq (State.AddressesDistinct.map (f := Station.unpinnedFrom a) distinct fun _ => rfl)]
  simp only [Vector.map_map, Option.map_comp_map]
  rfl

theorem freeRecord_eq {i : Slot} {r : Record} (hr : s.recordAt i = some r) (distinct : s.AddressesDistinct) :
    freeRecord i s =
      { s.withSlot i { reuse := (s.slots[i]).reuse + 1, record := none, queue0 := [], queue1 := [] } with
        masters := s.masters.set r.owner ((s.masters[r.owner]).bind Master.fewer)
        stations := s.stations.map (Option.map fun x => (x.unpinnedFrom r.ownerAddr).unpinnedFrom r.destAddr) } := by
  simp only [freeRecord, hr, lowerHeld_eq]
  exact lowerPin_lowerPin_eq
    (s := (s.modSlot i fun c => { reuse := c.reuse + 1, record := none, queue0 := [], queue1 := [] }).withMaster r.owner
      ((s.masters[r.owner]).bind Master.fewer)) distinct ..

theorem freeRecord_slot {i : Slot} {r : Record} (hr : s.recordAt i = some r) :
    (freeRecord i s).slots[i] = { reuse := (s.slots[i]).reuse + 1, record := none, queue0 := [], queue1 := [] } := by
  rw [freeRecord_slots hr]
  exact s.withSlot_slot_self i _

theorem freeRecord_other_slot {i j : Slot} (h : j ≠ i) (s : State) : (freeRecord i s).slots[j] = s.slots[j] := by
  cases hr : s.recordAt i with
  | none => rw [freeRecord, hr]
  | some r =>
    rw [freeRecord_slots hr]
    exact s.modSlot_get_ne i j (fun _ => _) h

theorem freeRecord_ports (i : Slot) (s : State) : (freeRecord i s).ports = s.ports := by rw [freeRecord_frame]

end Free

/-! ### An ENDING record is freed (R39, R109) -/

section Ending

variable {s : State} {i : Slot} {r : Record}

theorem freeEnding_told (hr : s.recordAt i = some r) : Told (freeRecord i s) (freeEnding i s) := by
  have released := Told.foldl _ (fun t m => Told.answerReleased i (s.streamOf i) m t) r.waiters (freeRecord i s)
  simp only [freeEnding, hr]
  split
  · exact released
  · exact released.trans (Told.handEnded ..)

theorem freeEnding_slot (hr : s.recordAt i = some r) :
    (freeEnding i s).slots[i] = { reuse := (s.slots[i]).reuse + 1, record := none, queue0 := [], queue1 := [] } := by
  rw [(freeEnding_told hr).slots, freeRecord_slot hr]

theorem freeEnding_of_free (hr : s.recordAt i = none) : freeEnding i s = s := by rw [freeEnding, hr]

theorem freeEnding_other_slot {j : Slot} (h : j ≠ i) (s : State) : (freeEnding i s).slots[j] = s.slots[j] := by
  cases hr : s.recordAt i with
  | none => rw [freeEnding_of_free hr]
  | some r => rw [(freeEnding_told hr).slots, freeRecord_other_slot h]

end Ending

/-- RELEASED to one waiter, out of its entry (R39, R109). -/
theorem answerReleased_of_awaiting {s : State} {i : Slot} {n : Nat} {m : MasterIndex} {e : Master} {cr : CurrentRequest}
    (he : s.masters[m] = some e) (awaits : e.awaited = some (.release i)) (hr : e.request = some cr) :
    answerReleased i n m s = s.answered m e cr .released (.released n s.store.generation) := by
  rw [answerReleased, he]
  exact (if_pos awaits).trans (answerMaster_eq he hr ..)

theorem answerReleased_of_other {s : State} {i : Slot} {n : Nat} {m : MasterIndex}
    (h : ∀ e, s.masters[m] = some e → e.awaited = some (.release i) → e.request = none) :
    answerReleased i n m s = s := by
  unfold answerReleased
  split
  · next e he =>
    split
    · next awaits =>
      refine answerMaster_none (fun e' he' => ?_) ..
      cases he.symm.trans he'
      exact h e he awaits
    · rfl
  · rfl

/-! ### A PENDING record is installed (R23, R111) -/

section Install

variable {s : State} {i : Slot} {r : Record}

/-- The state a record takes at the switch, before an end at another speed (R23). -/
def State.installState (s : State) (r : Record) : RecordState := if s.legsUp r then .active else .suspended

/-- `s` with record `r` of slot `i` installed (R23). -/
def State.withInstalled (s : State) (i : Slot) (r : Record) : State :=
  s.withRecord i (some { r with state := s.installState r, firstHypercycle := some s.time.hypercycle })

theorem installRecord_eq (hr : s.recordAt i = some r) (pending : r.state = .pending) :
    installRecord i s = answerGranted i r (s.installState r)
      (if s.otherSpeed r then endRecord i .speedChanged (s.withInstalled i r) else s.withInstalled i r) := by
  simp only [installRecord, hr, if_pos pending, State.modRecord_eq_withRecord hr]
  rfl

theorem installRecord_of_other (h : ∀ r, s.recordAt i = some r → r.state ≠ .pending) : installRecord i s = s := by
  unfold installRecord
  split
  · rfl
  · next r hr => exact if_neg (h r hr)

theorem State.withInstalled_recordAt : (s.withInstalled i r).recordAt i =
    some { r with state := s.installState r, firstHypercycle := some s.time.hypercycle } := s.withRecord_recordAt i _

theorem installRecord_other_slot {j : Slot} (h : j ≠ i) (s : State) : (installRecord i s).slots[j] = s.slots[j] := by
  by_cases pending : ∃ r, s.recordAt i = some r ∧ r.state = .pending
  · obtain ⟨r, hr, pending⟩ := pending
    have installed : (s.withInstalled i r).slots[j] = s.slots[j] := s.modSlot_get_ne i j (fun _ => _) h
    rw [installRecord_eq hr pending, (Told.answerGranted ..).slots]
    split
    · rw [endRecord_other_slot h, installed]
    · exact installed
  · rw [installRecord_of_other fun r hr state => pending ⟨r, hr, state⟩]

/-- The record that an installation leaves (R23). -/
theorem installRecord_recordAt (hr : s.recordAt i = some r) (pending : r.state = .pending) :
    ∃ r', (installRecord i s).recordAt i = some r' ∧ r'.firstHypercycle = some s.time.hypercycle ∧
      (s.otherSpeed r = true → r'.state = .ending ∧ r'.endReason = some .speedChanged) ∧
      (s.otherSpeed r = false → r'.state = s.installState r) := by
  have installed := State.withInstalled_recordAt (s := s) (i := i) (r := r)
  rw [installRecord_eq hr pending, (Told.answerGranted ..).recordAt]
  cases other : s.otherSpeed r with
  | true =>
    rw [if_pos rfl, endRecord_eq installed, State.recordAt, State.withEnded_slot]
    exact ⟨_, rfl, rfl, fun _ => ⟨rfl, rfl⟩, nofun⟩
  | false =>
    rw [if_neg Bool.false_ne_true, installed]
    exact ⟨_, rfl, rfl, nofun, fun _ => rfl⟩

/-- The installations leave a slot without a PENDING record as it is. -/
theorem foldl_installRecord_of_other (l : List Slot) (h : ∀ r, s.recordAt i = some r → r.state ≠ .pending) :
    (l.foldl (fun t j => installRecord j t) s).slots[i] = s.slots[i] := by
  induction l generalizing s with
  | nil => rfl
  | cons j l ih =>
    have first : (installRecord j s).slots[i] = s.slots[i] := by
      by_cases hj : i = j
      · subst hj
        rw [installRecord_of_other h]
      · exact installRecord_other_slot hj s
    refine (ih fun r hr => h r ?_).trans first
    exact (congrArg SlotCell.record first).symm.trans hr

/-- The installations leave a PENDING record whose slot is among them as its installation does, which finds it as it
was. -/
theorem foldl_installRecord_visit {l : List Slot} (hi : i ∈ l) (hr : s.recordAt i = some r)
    (pending : r.state = .pending) :
    ∃ u, Quiet s u ∧ u.recordAt i = some r ∧
      (l.foldl (fun t j => installRecord j t) s).slots[i] = (installRecord i u).slots[i] := by
  induction l generalizing s with
  | nil => cases hi
  | cons j l ih =>
    by_cases hj : i = j
    · subst hj
      refine ⟨s, Quiet.refl s, hr, foldl_installRecord_of_other l fun r' hr' => ?_⟩
      obtain ⟨r'', found, _, ends, stands⟩ := installRecord_recordAt hr pending
      cases found.symm.trans hr'
      cases other : s.otherSpeed r with
      | true => rw [(ends other).1]; nofun
      | false =>
        rw [stands other, State.installState]
        split <;> nofun
    · have kept : (installRecord j s).recordAt i = some r :=
        (congrArg SlotCell.record (installRecord_other_slot hj s)).trans hr
      obtain ⟨u, quiet, found, left⟩ := ih ((List.mem_cons.1 hi).resolve_left hj) kept
      exact ⟨u, (Quiet.installRecord j s).trans quiet, found, left⟩

end Install

/-! ### The boundary, read at one slot (R39, R62) -/

section Boundary

variable {s t : State} {i : Slot} {r : Record}

/-- `s` at its boundary, before the switch (R5). -/
def State.counted (s : State) : State :=
  { s with time := { s.time with boundaryDue := .none, hypercycle := s.time.hypercycle + 1 } }

theorem exec_hypercycleBoundary_eq (hr : s.resetAsserted = false) (due : s.time.boundaryDue = .hypercycle) :
    exec .hypercycleBoundary s = .next (settleEgress (captureBeacon (takeSwitch s.counted))) :=
  exec_hypercycleBoundary_of_due hr due

theorem calendarSwitch_slots (s : State) : (calendarSwitch s).slots = s.slots := by rw [calendarSwitch_frame]

/-- The switch leaves of slots what its schedulers' tests can. -/
theorem State.switched_scheduled (s : State) : Scheduled (calendarSwitch s) s.switched :=
  foldl_related Scheduled.refl Scheduled.trans Scheduled.testHeads _ _

/-- The record of a slot before the installations: as it was, but for NOTICE_LOST. -/
theorem State.switched_recordAt (hr : s.recordAt i = some r) :
    s.switched.recordAt i = some r ∨ s.switched.recordAt i = some (markLost r) := by
  have before : (calendarSwitch s).recordAt i = some r := by
    rw [State.recordAt, calendarSwitch_slots]
    exact hr
  rcases s.switched_scheduled.record i with same | lost
  · exact .inl (same.trans before)
  · exact .inr (by rw [lost, before]; rfl)

theorem takeSwitch_slots (s : State) : (takeSwitch s).slots = s.switchFreed.slots :=
  (Told.foldl _ (fun t m => Told.answerDeferred m t) s.switchFreed.switchAnswers s.switchFreed).slots

theorem switchFreed_of_other (h : i ∉ s.endingSlots) : s.switchFreed.slots[i] = s.switchInstalled.slots[i] :=
  foldl_other (get := fun s (i : Slot) => s.slots[i]) (f := freeEnding) (fun _ _ _ h => freeEnding_other_slot h _) h _

theorem State.mem_endingSlots : i ∈ s.endingSlots ↔ ∃ r, s.recordAt i = some r ∧ r.state = .ending := by
  rw [State.endingSlots_eq, List.mem_filter, Option.any_eq_true]
  simp

theorem State.endingSlots_nodup (s : State) : s.endingSlots.Nodup := by
  rw [State.endingSlots_eq]
  exact (List.nodup_finRange 128).filter _

/-- An ENDING record is freed at the switch (R39). -/
theorem takeSwitch_slot_of_ending (hr : s.recordAt i = some r) (ending : r.state = .ending) :
    (takeSwitch s).slots[i] = { reuse := (s.slots[i]).reuse + 1, record := none, queue0 := [], queue1 := [] } := by
  obtain ⟨r', before, state⟩ : ∃ r', s.switched.recordAt i = some r' ∧ r'.state = .ending := by
    rcases State.switched_recordAt hr with h | h
    · exact ⟨r, h, ending⟩
    · exact ⟨markLost r, h, ending⟩
  have installed : s.switchInstalled.slots[i] = s.switched.slots[i] := by
    refine foldl_installRecord_of_other _ fun r'' hr'' pending => ?_
    cases before.symm.trans hr''
    rw [state] at pending
    cases pending
  obtain ⟨u, _, found, _, left⟩ := foldl_visit (get := fun s (i : Slot) => s.slots[i]) (R := fun _ _ => True)
    (f := freeEnding) (fun _ => trivial) (fun _ _ => trivial) (fun _ _ => trivial)
    (fun _ _ _ h => freeEnding_other_slot h _) s.endingSlots_nodup
    (State.mem_endingSlots.2 ⟨r, hr, ending⟩) s.switchInstalled
  have reuse : (s.switched.slots[i]).reuse = (s.slots[i]).reuse := by
    rw [s.switched_scheduled.reuse i, calendarSwitch_slots]
  have cell : u.slots[i] = s.switched.slots[i] := found.trans installed
  have hu : u.recordAt i = some r' := (congrArg SlotCell.record cell).trans before
  have freed : s.switchFreed.slots[i] = (freeEnding i u).slots[i] := left
  rw [takeSwitch_slots, freed, freeEnding_slot hu, cell, reuse]

/-- A slot that is free and empty stays so under the schedulers. -/
theorem settleEgress_slot_of_free (h : s.slots[i] = { s.slots[i] with record := none, queue0 := [], queue1 := [] }) :
    (settleEgress s).slots[i] = s.slots[i] := by
  have sent := Scheduled.settleEgress s
  have record : (s.slots[i]).record = none := by rw [h]
  have queue : ∀ n, (s.slots[i]).queue n = [] := fun n => by rw [h]; cases n <;> rfl
  have left : ((settleEgress s).slots[i]).record = none := by
    rcases sent.record i with same | lost
    · exact same.trans record
    · exact lost.trans (congrArg (Option.map markLost) record)
  have empty : ∀ n, ((settleEgress s).slots[i]).queue n = [] := fun n =>
    List.suffix_nil.1 (queue n ▸ sent.queue i n)
  have reuse := sent.reuse i
  rw [h]
  generalize (settleEgress s).slots[i] = c at *
  obtain ⟨_, _, _, _⟩ := c
  have empty0 := empty .leg0
  have empty1 := empty .leg1
  dsimp only [SlotCell.queue] at *
  subst reuse left empty0 empty1
  rfl

end Boundary

/-- Settles O12: the slot at the boundary, the counts of a freed record, and what its waiters and owner are told. -/
theorem boundaryFreesEndingRecords : Obligations.BoundaryFreesEndingRecords := by
  refine ⟨fun s t i r released due hr ending taken => ?_, fun s i r hr distinct => ?_, fun s i r hr => ?_⟩
  · rw [exec_hypercycleBoundary_eq released due] at taken
    have ht := Host.Outcome.next.inj taken
    have freed : (captureBeacon (takeSwitch s.counted)).slots[i] =
        { reuse := (s.slots[i]).reuse + 1, record := none, queue0 := [], queue1 := [] } :=
      takeSwitch_slot_of_ending (s := s.counted) hr ending
    rw [← ht, settleEgress_slot_of_free (by rw [freed]), freed]
  · rw [freeRecord_eq hr distinct]
    congr 2
  · intro n released told
    have walk : r.waiters.foldl (fun t m => answerReleased i n m t) (freeRecord i s) = told := by
      have each : (fun t m => answerReleased i n m t) = released := by
        funext t m
        show _ = (match t.masters[m] with
          | some e =>
            match e.awaited, e.request with
            | some (.release j), some cr =>
              if j = i then t.answered m e cr .released (.released n t.store.generation) else t
            | _, _ => t
          | none => t)
        split
        · next e he =>
          split
          · next j cr awaits request =>
            split
            · next h => exact answerReleased_of_awaiting he (h ▸ awaits) request
            · next h =>
              refine answerReleased_of_other fun e' he' awaits' => ?_
              cases he.symm.trans he'
              cases awaits.symm.trans awaits'
              exact absurd rfl h
          · next other =>
            refine answerReleased_of_other fun e' he' awaits => ?_
            cases he.symm.trans he'
            cases request : e.request with
            | none => rfl
            | some cr => exact absurd request (other i cr awaits)
        · next he => exact answerReleased_of_other fun e he' => by rw [he] at he'; cases he'
      rw [each]
    have time : told.time = s.time := by
      have quiet := (Told.foldl _ (fun t m => Told.answerReleased i n m t) r.waiters (freeRecord i s)).quiet
      rw [walk] at quiet
      rw [quiet.time, freeRecord_frame]
    have freed : freeEnding i s = if r.owner ∈ r.waiters then told else handEnded n r told := by
      rw [← walk]
      simp only [freeEnding, hr]
      rfl
    rw [freed]
    refine ⟨fun waits => if_pos waits, fun absent up place => ?_, fun absent none => ?_⟩
    · rw [if_neg absent, handEnded, if_pos (State.nonReplyFree_iff.2 ⟨up, place⟩), time]
      rfl
    · rw [if_neg absent, handEnded, if_neg (by rw [State.nonReplyFree_eq_false none]; nofun)]

section Installed

variable {s : State} {i : Slot} {r : Record}

theorem calendarSwitch_portSpeed (s : State) (p : Port) : (calendarSwitch s).portSpeed p = s.portSpeed p := by
  rw [State.portSpeed, calendarSwitch_port]
  rfl

theorem State.otherSpeed_congr {t : State} (h : ∀ p, t.portSpeed p = s.portSpeed p) (r : Record) :
    t.otherSpeed r = s.otherSpeed r := by
  simp only [State.otherSpeed, h]

theorem State.legsUp_congr {t : State} (h : ∀ p, t.portSpeed p = s.portSpeed p) (r : Record) :
    t.legsUp r = s.legsUp r := by
  simp only [State.legsUp, State.portUp, h]

/-- A PENDING record whose leg 0 is staged, after the switch (R23, R62). -/
theorem takeSwitch_recordAt_of_staged (hr : s.recordAt i = some r) (pending : r.state = .pending)
    (staged : i ∈ s.installingSlots) :
    ∃ r', (takeSwitch s).recordAt i = some r' ∧ r'.firstHypercycle = some s.time.hypercycle ∧
      (s.otherSpeed r = true → r'.state = .ending ∧ r'.endReason = some .speedChanged) ∧
      (s.otherSpeed r = false → r'.state = s.installState r) := by
  obtain ⟨r1, before, state, legs0, legs1⟩ : ∃ r1, s.switched.recordAt i = some r1 ∧ r1.state = .pending ∧
      r1.leg0 = r.leg0 ∧ r1.leg1 = r.leg1 := by
    rcases State.switched_recordAt hr with h | h
    · exact ⟨r, h, pending, rfl, rfl⟩
    · exact ⟨markLost r, h, pending, rfl, rfl⟩
  obtain ⟨u, quiet, found, left⟩ := foldl_installRecord_visit staged before state
  have notEnding : i ∉ s.endingSlots := fun ending => by
    obtain ⟨r2, hr2, state2⟩ := State.mem_endingSlots.1 ending
    cases hr.symm.trans hr2
    rw [pending] at state2
    cases state2
  have record : (takeSwitch s).recordAt i = (installRecord i u).recordAt i := by
    have freed := switchFreed_of_other notEnding
    rw [State.recordAt, takeSwitch_slots, freed]
    exact congrArg SlotCell.record left
  have speed : ∀ p, u.portSpeed p = s.portSpeed p := fun p => by
    rw [quiet.portSpeed, s.switched_scheduled.portSpeed, calendarSwitch_portSpeed]
  have time : u.time.hypercycle = s.time.hypercycle := by
    rw [quiet.time, s.switched_scheduled.time, calendarSwitch_frame]
  have legs : r1.legs = r.legs := by rw [Record.legs, Record.legs, legs0, legs1]
  have other : u.otherSpeed r1 = s.otherSpeed r := by
    rw [State.otherSpeed_congr speed, State.otherSpeed, State.otherSpeed, legs]
  have install : u.installState r1 = s.installState r := by
    rw [State.installState, State.installState, State.legsUp_congr speed, State.legsUp, State.legsUp, legs]
  obtain ⟨r', hr', first, ends, stands⟩ := installRecord_recordAt found state
  rw [other] at ends stands
  rw [install] at stands
  exact ⟨r', record.trans hr', first.trans (congrArg some time), ends, stands⟩

theorem answerGranted_eq {st : RecordState} {e : Master} {cr : CurrentRequest} (he : s.masters[r.owner] = some e)
    (awaits : e.awaited = some (.grant i)) (hc : e.request = some cr) :
    answerGranted i r st s = s.answered r.owner e cr .granted
      (.granted
        { state := st, stream := s.streamOf i, firstHypercycle := s.time.hypercycle
          generation := s.store.generation, rate := r.rate, phase := r.phase, leg0 := r.leg0, leg1 := r.leg1 }) := by
  rw [answerGranted, he]
  exact (if_pos awaits).trans (answerMaster_eq he hc ..)

theorem State.withInstalled_streamOf : (s.withInstalled i r).streamOf i = s.streamOf i := by
  simp [State.streamOf, State.withInstalled, State.withRecord]

/-- What the GRANTED reply of an installed record says (R111). -/
def State.grantReply (s : State) (i : Slot) (r : Record) (st : RecordState) : AnswerBody :=
  .granted
    { state := st, stream := s.streamOf i, firstHypercycle := s.time.hypercycle
      generation := s.store.generation, rate := r.rate, phase := r.phase, leg0 := r.leg0, leg1 := r.leg1 }

theorem answerGranted_of_same {u : State} {st : RecordState} {e : Master} {cr : CurrentRequest}
    (masters : u.masters = s.masters) (stream : u.streamOf i = s.streamOf i) (time : u.time = s.time)
    (store : u.store = s.store) (he : s.masters[r.owner] = some e) (awaits : e.awaited = some (.grant i))
    (hc : e.request = some cr) :
    answerGranted i r st u = u.answered r.owner e cr .granted (s.grantReply i r st) := by
  have entry : u.masters[r.owner] = some e := by rw [masters]; exact he
  rw [answerGranted_eq entry awaits hc, stream, time, store]
  rfl

theorem installRecord_answered {e : Master} {cr : CurrentRequest} (hr : s.recordAt i = some r)
    (pending : r.state = .pending) (he : s.masters[r.owner] = some e) (awaits : e.awaited = some (.grant i))
    (hc : e.request = some cr) :
    installRecord i s =
      (if s.otherSpeed r then endRecord i .speedChanged (s.withInstalled i r)
        else s.withInstalled i r).answered r.owner e cr .granted (s.grantReply i r (s.installState r)) := by
  have installed := State.withInstalled_recordAt (s := s) (i := i) (r := r)
  rw [installRecord_eq hr pending]
  split
  · rw [endRecord_eq installed]
    refine answerGranted_of_same rfl ?_ rfl rfl he awaits hc
    rw [State.streamOf, State.withEnded_slot]
    exact State.withInstalled_streamOf
  · exact answerGranted_of_same rfl State.withInstalled_streamOf rfl rfl he awaits hc

end Installed

/-- Settles O13: the record at the boundary, and the reply of one installation. -/
theorem boundaryInstallsPendingRecords : Obligations.BoundaryInstallsPendingRecords := by
  refine ⟨fun s t i r e released due hr pending staged slot leg taken => ?_,
    fun s i r e cr hr pending he awaits hc => ?_⟩
  · intro wrongSpeed allUp
    have wrong : s.otherSpeed r = true ↔ wrongSpeed := s.otherSpeed_iff r
    have up : s.legsUp r = true ↔ allUp := s.legsUp_iff r
    have installs : i ∈ s.counted.installingSlots := by
      rw [State.installingSlots_eq]
      exact List.mem_map.2 ⟨e, List.mem_filter.2 ⟨staged, beq_iff_eq.2 leg⟩, slot⟩
    obtain ⟨r', hr', first, ends, stands⟩ := takeSwitch_recordAt_of_staged (s := s.counted) hr pending installs
    rw [exec_hypercycleBoundary_eq released due] at taken
    have ht := Host.Outcome.next.inj taken
    obtain ⟨r'', hr'', same⟩ : ∃ r'', t.recordAt i = some r'' ∧ (r'' = r' ∨ r'' = markLost r') := by
      rw [← ht]
      rcases (Sending.settleEgress (captureBeacon (takeSwitch s.counted))).record i with h | h
      · exact ⟨r', h.trans hr', .inl rfl⟩
      · exact ⟨markLost r', h.trans (congrArg (Option.map markLost) hr'), .inr rfl⟩
    have fields : r''.firstHypercycle = r'.firstHypercycle ∧ r''.state = r'.state ∧ r''.endReason = r'.endReason := by
      rcases same with rfl | rfl <;> exact ⟨rfl, rfl, rfl⟩
    obtain ⟨sameFirst, sameState, sameReason⟩ := fields
    have notWrong : allUp → s.otherSpeed r = false := fun ready => by
      rw [Bool.eq_false_iff, Ne, wrong]
      rintro ⟨l, hl, v, hv, other⟩
      exact other (Option.some.inj (hv.symm.trans (ready l hl).2))
    refine ⟨r'', hr'', sameFirst.trans first, fun ready => ?_, fun notReady right => ?_, fun h => ?_⟩
    · rw [sameState, stands (notWrong ready)]
      exact if_pos (up.2 ready)
    · rw [sameState, stands (Bool.eq_false_iff.2 (mt wrong.1 right))]
      exact if_neg (mt up.1 notReady)
    · rw [sameState, sameReason]
      exact ends (wrong.2 h)
  · intro wrongSpeed allUp entered reply
    have wrong : s.otherSpeed r = true ↔ wrongSpeed := s.otherSpeed_iff r
    have up : s.legsUp r = true ↔ allUp := s.legsUp_iff r
    have notWrong : allUp → ¬wrongSpeed := by
      rintro ready ⟨l, hl, v, hv, other⟩
      exact other (Option.some.inj (hv.symm.trans (ready l hl).2))
    have installed : ∀ st, s.installState r = st → s.withInstalled i r = entered st := by
      rintro st rfl
      rfl
    rw [installRecord_answered hr pending he awaits hc]
    refine ⟨fun ready => ?_, fun notReady right => ?_, fun h => ?_⟩
    · have st : s.installState r = .active := if_pos (up.2 ready)
      rw [if_neg (mt wrong.1 (notWrong ready)), installed _ st, st]
      rfl
    · have st : s.installState r = .suspended := if_neg (mt up.1 notReady)
      rw [if_neg (mt wrong.1 right), installed _ st, st]
      rfl
    · have st : s.installState r = .suspended := if_neg fun ready => notWrong (up.1 ready) h
      rw [if_pos (wrong.2 h), installed _ st, st]
      rfl

end Sys2Proof.Machine

/-! SUPPORT. Moves, clears and releases (chapters 02, 04 and 10): records that end or are cancelled, one by one and over
the slots. -/

namespace Sys2Proof.Machine

/-! ### A PENDING record is cancelled (R24, R59, R108) -/

section Cancel

variable {s : State} {i : Slot} {r : Record}

theorem Walked.withControl (s : State) (p : Port) (f : ControlFrame) : Walked s (s.withControl p f) :=
  Walked.enqueue s p f

theorem Walked.withMaster (s : State) (m : MasterIndex) (e : Option Master) : Walked s (s.withMaster m e) :=
  Walked.of_ports (Quiet.putMaster s m e) rfl fun _ h => h

theorem Walked.answered (s : State) (m : MasterIndex) (e : Master) (rq : CurrentRequest) (st : Status)
    (body : AnswerBody) : Walked s (s.answered m e rq st body) := by
  unfold State.answered
  split
  · exact (Walked.withControl ..).trans (Walked.withMaster ..)
  · exact Walked.withMaster ..

theorem Walked.answerMaster (m : MasterIndex) (st : Status) (body : AnswerBody) (s : State) :
    Walked s (Machine.answerMaster m st body s) := by
  rcases answerMaster_cases m st body s with h | ⟨e, rq, _, _, h⟩
  · rw [h]; exact refl s
  · rw [h]; exact answered ..

/-- The slot's entries gone from the change list (R59). -/
theorem withdraw_eq (i : Slot) (s : State) :
    withdraw i s = { s with store := { s.store with
      changeList := s.store.changeList.filter fun e => e.slot != i } } := rfl

theorem answerCancelled_of_awaiting {n : Nat} {m : MasterIndex} {cause : EndReason} {e : Master} {cr : CurrentRequest}
    (he : s.masters[m] = some e) (awaits : e.awaited = some (.grant i)) (hc : e.request = some cr) :
    answerCancelled i n m cause s = s.answered m e cr .cancelled (.cancelled n cause) := by
  rw [answerCancelled, he]
  exact (if_pos awaits).trans (answerMaster_eq he hc ..)

theorem answerCancelled_of_other {n : Nat} {m : MasterIndex} {cause : EndReason}
    (h : ∀ e, s.masters[m] = some e → e.awaited ≠ some (.grant i)) : answerCancelled i n m cause s = s := by
  unfold answerCancelled
  split
  · next e he => exact if_neg (h e he)
  · rfl

theorem answerCancelled_or (n : Nat) (m : MasterIndex) (cause : EndReason) :
    answerCancelled i n m cause s = s ∨
      answerCancelled i n m cause s = answerMaster m .cancelled (.cancelled n cause) s := by
  unfold answerCancelled
  split
  · split
    · exact .inr rfl
    · exact .inl rfl
  · exact .inl rfl

theorem Walked.answerCancelled (i : Slot) (n : Nat) (m : MasterIndex) (cause : EndReason) (s : State) :
    Walked s (Machine.answerCancelled i n m cause s) := by
  rcases answerCancelled_or (s := s) (i := i) n m cause with h | h
  · rw [h]; exact refl s
  · rw [h]; exact answerMaster ..

/-- The record is withdrawn and freed; its owner is told after that. -/
theorem cancelRecord_eq (hr : s.recordAt i = some r) (cause : EndReason) :
    cancelRecord i cause s =
      answerCancelled i (s.streamOf i) r.owner cause (freeRecord i (withdraw i s)) := by
  rw [cancelRecord, hr]

theorem cancelRecord_told (hr : s.recordAt i = some r) (cause : EndReason) :
    Told (freeRecord i (withdraw i s)) (cancelRecord i cause s) := by
  rw [cancelRecord_eq hr]
  exact Told.answerCancelled ..

theorem cancelRecord_slot (hr : s.recordAt i = some r) (cause : EndReason) :
    (cancelRecord i cause s).slots[i] =
      { reuse := (s.slots[i]).reuse + 1, record := none, queue0 := [], queue1 := [] } := by
  rw [(cancelRecord_told hr cause).slots]
  exact freeRecord_slot (s := withdraw i s) hr

theorem cancelRecord_other_slot {j : Slot} (h : j ≠ i) (cause : EndReason) (s : State) :
    (cancelRecord i cause s).slots[j] = s.slots[j] := by
  cases hr : s.recordAt i with
  | none => rw [cancelRecord, hr]
  | some r =>
    rw [(cancelRecord_told hr cause).slots, freeRecord_other_slot h]
    rfl

theorem cancelRecord_store (hr : s.recordAt i = some r) (cause : EndReason) :
    (cancelRecord i cause s).store =
      { s.store with changeList := s.store.changeList.filter fun e => e.slot != i } := by
  rw [(cancelRecord_told hr cause).store, freeRecord_frame]
  rfl

theorem Walked.cancelRecord (hr : s.recordAt i = some r) (cause : EndReason) :
    Walked s (Machine.cancelRecord i cause s) := by
  have freed : Walked s (freeRecord i (withdraw i s)) := by
    refine .of_ports ((Quiet.withdraw i s).trans (Quiet.freeRecord ..)) (freeRecord_ports ..) fun e he => ?_
    rw [freeRecord_frame] at he
    exact (List.mem_filter.1 he).1
  rw [cancelRecord_eq hr]
  exact freed.trans (Walked.answerCancelled ..)

/-- An owner that is not IDLE keeps its entry, with one record less (R44, R98). -/
theorem Master.fewer_of_phase {e : Master} (h : e.phase ≠ .idle) : e.fewer = some { e with held := e.held - 1 } :=
  if_neg fun idle => h idle.1

theorem freeRecord_owner (hr : s.recordAt i = some r) {e : Master} (he : s.masters[r.owner] = some e) :
    (freeRecord i s).masters[r.owner] = e.fewer := by
  rw [freeRecord_masters hr, he]
  exact (s.putMaster_get r.owner r.owner _).trans (if_pos rfl)

theorem freeRecord_other_master (hr : s.recordAt i = some r) {m : MasterIndex} (h : m ≠ r.owner) :
    (freeRecord i s).masters[m] = s.masters[m] := by
  rw [freeRecord_masters hr]
  exact s.putMaster_get_ne r.owner m _ h

/-- The owner that awaits the grant is answered CANCELLED in the same act (R108). -/
theorem cancelRecord_answered (hr : s.recordAt i = some r) (cause : EndReason) {e : Master} {cr : CurrentRequest}
    (he : s.masters[r.owner] = some e) (awaits : e.awaited = some (.grant i)) (executing : e.phase = .executing)
    (hc : e.request = some cr) :
    cancelRecord i cause s =
      (freeRecord i (withdraw i s)).answered r.owner { e with held := e.held - 1 } cr .cancelled
        (.cancelled (s.streamOf i) cause) := by
  have entry : (freeRecord i (withdraw i s)).masters[r.owner] = some { e with held := e.held - 1 } :=
    (freeRecord_owner (s := withdraw i s) hr he).trans (Master.fewer_of_phase (by rw [executing]; nofun))
  rw [cancelRecord_eq hr]
  exact answerCancelled_of_awaiting entry awaits hc

theorem State.answered_other_master {m k : MasterIndex} (h : k ≠ m) (e : Master) (cr : CurrentRequest) (st : Status)
    (body : AnswerBody) : (s.answered m e cr st body).masters[k] = s.masters[k] := by
  unfold State.answered
  split
  · exact (State.withMaster_master ..).trans (if_neg h)
  · exact (State.withMaster_master ..).trans (if_neg h)

/-- A master that is not the owner, or awaits no grant, is not answered. -/
theorem cancelRecord_master_of_queued (hr : s.recordAt i = some r) (cause : EndReason) {m : MasterIndex} {e : Master}
    (he : s.masters[m] = some e) (queued : e.phase = .queued) (awaits : e.awaited = none) :
    (cancelRecord i cause s).masters[m] = some { e with held := e.held - if r.owner = m then 1 else 0 } := by
  have notIdle : e.phase ≠ .idle := by rw [queued]; nofun
  rw [cancelRecord_eq hr]
  by_cases owner : r.owner = m
  · subst owner
    have entry : (freeRecord i (withdraw i s)).masters[r.owner] = some { e with held := e.held - 1 } :=
      (freeRecord_owner (s := withdraw i s) hr he).trans (Master.fewer_of_phase notIdle)
    rw [answerCancelled_of_other, entry, if_pos rfl]
    intro e' he' awaits'
    cases entry.symm.trans he'
    rw [show ({ e with held := e.held - 1 } : Master).awaited = none from awaits] at awaits'
    cases awaits'
  · have entry : (freeRecord i (withdraw i s)).masters[m] = s.masters[m] :=
      freeRecord_other_master (s := withdraw i s) hr (Ne.symm owner)
    rw [if_neg owner]
    have left : (answerCancelled i (s.streamOf i) r.owner cause (freeRecord i (withdraw i s))).masters[m] =
        (freeRecord i (withdraw i s)).masters[m] := by
      rcases answerCancelled_or (s := freeRecord i (withdraw i s)) (i := i) (s.streamOf i) r.owner cause with h | h
      · rw [h]
      · rw [h]
        rcases answerMaster_cases r.owner .cancelled (.cancelled (s.streamOf i) cause) (freeRecord i (withdraw i s))
          with h | ⟨x, cr, _, _, h⟩
        · rw [h]
        · rw [h, State.answered_other_master (Ne.symm owner)]
    rw [left, entry, he]
    rfl

end Cancel

/-! ### Moves and clears over the slots (R37, R38) -/

section EndAll

variable {s : State} {i : Slot} {r : Record}

theorem endOrCancel_of_standing (hr : s.recordAt i = some r)
    (h : r.state = .active ∨ r.state = .dormant ∨ r.state = .suspended) (why : EndReason) :
    endOrCancel i why s = s.withEnded i why r := by
  rw [← endRecord_eq hr, endOrCancel, hr]
  rcases h with h | h | h <;> simp only [h]

theorem endOrCancel_of_pending (hr : s.recordAt i = some r) (h : r.state = .pending) (why : EndReason) :
    endOrCancel i why s = cancelRecord i why s := by
  rw [endOrCancel, hr]
  simp only [h]

theorem endOrCancel_of_ending (hr : s.recordAt i = some r) (h : r.state = .ending) (why : EndReason) :
    endOrCancel i why s = s := by
  rw [endOrCancel, hr]
  simp only [h]

/-- What a move or a clear of the records for which `f` holds does at slot `i`. -/
def endAt (f : Record → Bool) (why : EndReason) (i : Slot) (s : State) : State :=
  match s.recordAt i with
  | some r => if f r then endOrCancel i why s else s
  | none => s

theorem endAll_eq (f : Record → Bool) (why : EndReason) (s : State) :
    endAll f why s = (List.finRange 128).foldl (fun t i => endAt f why i t) s := rfl

theorem endAt_of_free (hr : s.recordAt i = none) (f : Record → Bool) (why : EndReason) : endAt f why i s = s := by
  rw [endAt, hr]

theorem endAt_of_spared (hr : s.recordAt i = some r) {f : Record → Bool} (h : f r = false ∨ r.state = .ending)
    (why : EndReason) : endAt f why i s = s := by
  rw [endAt, hr]
  rcases h with h | h
  · simp [h]
  · simp only [endOrCancel_of_ending hr h, ite_self]

theorem endAt_of_standing (hr : s.recordAt i = some r) {f : Record → Bool} (hf : f r = true)
    (h : r.state = .active ∨ r.state = .dormant ∨ r.state = .suspended) (why : EndReason) :
    endAt f why i s = s.withEnded i why r := by
  rw [endAt, hr]
  exact (if_pos hf).trans (endOrCancel_of_standing hr h why)

theorem endAt_of_pending (hr : s.recordAt i = some r) {f : Record → Bool} (hf : f r = true) (h : r.state = .pending)
    (why : EndReason) : endAt f why i s = cancelRecord i why s := by
  rw [endAt, hr]
  exact (if_pos hf).trans (endOrCancel_of_pending hr h why)

/-- The four cases of a visit. -/
theorem endAt_cases (f : Record → Bool) (why : EndReason) (i : Slot) (s : State) :
    endAt f why i s = s ∨
      (∃ r, s.recordAt i = some r ∧ f r = true ∧
        (r.state = .active ∨ r.state = .dormant ∨ r.state = .suspended) ∧ endAt f why i s = s.withEnded i why r) ∨
      ∃ r, s.recordAt i = some r ∧ f r = true ∧ r.state = .pending ∧ endAt f why i s = cancelRecord i why s := by
  cases hr : s.recordAt i with
  | none => exact .inl (endAt_of_free hr f why)
  | some r =>
    by_cases spared : f r = false ∨ r.state = .ending
    · exact .inl (endAt_of_spared hr spared why)
    · obtain ⟨hf, notEnding⟩ := not_or.1 spared
      have hf : f r = true := by simpa using hf
      cases h : r.state with
      | pending => exact .inr (.inr ⟨r, rfl, hf, h, endAt_of_pending hr hf h why⟩)
      | active => exact .inr (.inl ⟨r, rfl, hf, .inl h, endAt_of_standing hr hf (.inl h) why⟩)
      | dormant => exact .inr (.inl ⟨r, rfl, hf, .inr (.inl h), endAt_of_standing hr hf (.inr (.inl h)) why⟩)
      | suspended => exact .inr (.inl ⟨r, rfl, hf, .inr (.inr h), endAt_of_standing hr hf (.inr (.inr h)) why⟩)
      | ending => exact absurd h notEnding

theorem endAt_other_slot (f : Record → Bool) (why : EndReason) (i j : Slot) (s : State) (h : j ≠ i) :
    (endAt f why i s).slots[j] = s.slots[j] := by
  rcases endAt_cases f why i s with e | ⟨r, _, _, _, e⟩ | ⟨r, _, _, _, e⟩
  · rw [e]
  · rw [e, State.withEnded_other h]
  · rw [e, cancelRecord_other_slot h]

theorem Walked.endAt (f : Record → Bool) (why : EndReason) (i : Slot) (s : State) :
    Walked s (Machine.endAt f why i s) := by
  rcases endAt_cases f why i s with e | ⟨r, _, _, _, e⟩ | ⟨r, hr, _, _, e⟩
  · rw [e]; exact Walked.refl s
  · rw [e]; exact Walked.withEnded why
  · rw [e]; exact Walked.cancelRecord hr why

/-- The walk, read at one slot. -/
theorem endAll_visit (f : Record → Bool) (why : EndReason) (s : State) (i : Slot) :
    ∃ u, Walked s u ∧ u.slots[i] = s.slots[i] ∧ Walked (Machine.endAt f why i u) (endAll f why s) ∧
      (endAll f why s).slots[i] = (Machine.endAt f why i u).slots[i] :=
  foldl_visit (get := fun s (i : Slot) => s.slots[i]) Walked.refl Walked.trans (Walked.endAt f why)
    (endAt_other_slot f why) (List.nodup_finRange 128) (List.mem_finRange i) s

theorem endAll_of_pending (hr : s.recordAt i = some r) {f : Record → Bool} (hf : f r = true) (h : r.state = .pending)
    (why : EndReason) :
    (endAll f why s).slots[i] = { reuse := (s.slots[i]).reuse + 1, record := none, queue0 := [], queue1 := [] } ∧
      ∀ e ∈ (endAll f why s).store.changeList, e.slot ≠ i := by
  obtain ⟨u, _, found, after, left⟩ := endAll_visit f why s i
  have hu : u.recordAt i = some r := (congrArg SlotCell.record found).trans hr
  rw [endAt_of_pending hu hf h why] at after left
  refine ⟨by rw [left, cancelRecord_slot hu, found], fun e he same => ?_⟩
  have kept := after.changeList e he
  rw [cancelRecord_store hu] at kept
  exact bne_iff_ne.1 (List.mem_filter.1 kept).2 same

theorem endAll_of_standing (hr : s.recordAt i = some r) {f : Record → Bool} (hf : f r = true)
    (h : r.state = .active ∨ r.state = .dormant ∨ r.state = .suspended) (why : EndReason) :
    (endAll f why s).slots[i] = (s.withEnded i why r).slots[i] ∧
      ∀ p : Port, ∀ w ∈ ((endAll f why s).ports[p]).calendar, ∀ n, w.owner = .leg i n → w.retiring = true := by
  obtain ⟨u, _, found, after, left⟩ := endAll_visit f why s i
  have hu : u.recordAt i = some r := (congrArg SlotCell.record found).trans hr
  rw [endAt_of_standing hu hf h why] at after left
  refine ⟨?_, fun p w hw n owner => retiring_of_walked after hw owner⟩
  rw [left, State.withEnded_slot, State.withEnded_slot, found]

theorem endAll_of_spared {f : Record → Bool} (h : ∀ r, s.recordAt i = some r → f r = false ∨ r.state = .ending)
    (why : EndReason) : (endAll f why s).slots[i] = s.slots[i] := by
  obtain ⟨u, _, found, _, left⟩ := endAll_visit f why s i
  have kept : Machine.endAt f why i u = u := by
    cases hu : u.recordAt i with
    | none => exact endAt_of_free hu f why
    | some r => exact endAt_of_spared hu (h r ((congrArg SlotCell.record found).symm.trans hu)) why
  rw [left, kept, found]

end EndAll

/-- Settles O17: one record by its state, the walk read at one slot, and the cancelled record's owner. -/
theorem movesAndClearsEndOrCancelRecords : Obligations.MovesAndClearsEndOrCancelRecords := by
  refine ⟨fun a s => rfl, fun f why s => rfl, fun s i why r hr => ⟨fun standing => ?_, fun ending => ?_, ?_⟩,
    fun f why s i => ⟨fun r hr hf pending => endAll_of_pending hr hf pending why, fun r hr hf standing => ?_,
      fun r hr spared => ?_, fun free => ?_⟩, ?_⟩
  · rw [endOrCancel_of_standing hr standing, endRecord_eq hr]
  · exact endOrCancel_of_ending hr ending why
  · exact endRecord_eq hr why
  · obtain ⟨slot, retiring⟩ := endAll_of_standing hr hf standing why
    exact ⟨slot.trans (State.withEnded_slot ..), retiring⟩
  · refine endAll_of_spared (fun r' hr' => ?_) why
    cases hr.symm.trans hr'
    exact spared
  · exact endAll_of_spared (fun r hr => by rw [free] at hr; cases hr) why
  · intro s i why r e cr hr pending he awaits executing hc withdrawn
    exact ⟨endOrCancel_of_pending hr pending why, cancelRecord_answered hr why he awaits executing hc⟩

end Sys2Proof.Machine

/-! SUPPORT. RELEASE, CLEAR_PORT and CLEAR_CELL (chapters 04 and 10). -/

namespace Sys2Proof.Machine

/-! ### RELEASE (R35, R92, R108, R109) -/

section Release

variable {s : State} {rq : Request} {n : Nat} {e : Master} {cr : CurrentRequest} (takes : s.Takes rq e cr)
include takes

theorem exec_release_of_takes (body : rq.body = .release n) :
    exec .release s = .next (settleEgress (takeRelease rq n s)) := by
  simp only [exec, execRelease, takes.headRequest_eq, body]

theorem takeRelease_of_not_permitted (h : ¬s.mayAsk rq.port = true) :
    takeRelease rq n s = s.decided.answered rq.master e cr .notPermitted .kindAlone := by
  rw [← takes.answer_decided, takeRelease, if_pos (by simpa using h)]
  rfl

variable (may : s.mayAsk rq.port = true)
include may

theorem takeRelease_of_stale (stale : s.resolve n = none) :
    takeRelease rq n s = s.decided.answered rq.master e cr .noStream (.stream n) := by
  rw [← takes.answer_decided, takeRelease, if_neg (by simp [may]), stale]
  rfl

variable {i : Slot} {r : Record} (named : s.resolve n = some i) (hr : s.recordAt i = some r)
include named hr

theorem takeRelease_of_not_owner (h : ¬(rq.owns r = true ∨ rq.port = s.straps.adm)) :
    takeRelease rq n s = s.decided.answered rq.master e cr .notOwner (.stream n) := by
  obtain ⟨notOwner, notAdmin⟩ := not_or.1 h
  rw [← takes.answer_decided, takeRelease, if_neg (by simp [may]), named]
  simp only [hr]
  rw [if_pos (by simp [notOwner, notAdmin])]
  rfl

omit takes in
theorem takeRelease_of_entitled (h : rq.owns r = true ∨ rq.port = s.straps.adm) :
    takeRelease rq n s = releaseRecord rq.master n i r s.decided := by
  rw [takeRelease, if_neg (by simp [may]), named]
  simp only [hr]
  rw [if_neg (by rcases h with h | h <;> simp [h])]
  rfl

end Release

section Waiters

variable {s : State} {i : Slot} {r : Record} {m : MasterIndex} {e : Master}

/-- The record with master `m` among its release waiters, once (R35). -/
def Record.waitedBy (r : Record) (m : MasterIndex) : Record :=
  { r with waiters := if m ∈ r.waiters then r.waiters else r.waiters ++ [m] }

theorem joinWaiters_eq (hr : s.recordAt i = some r) (he : s.masters[m] = some e) :
    joinWaiters i m s =
      (s.withRecord i (some (r.waitedBy m))).withMaster m
        (some { e with phase := .executing, awaited := some (.release i) }) := by
  rw [joinWaiters, State.modRecord_eq_withRecord hr]
  exact deferMaster_eq (s := s.withRecord i (some (r.waitedBy m))) he _

/-- The waiters joined after the end are those joined before it. -/
theorem State.withEnded_withRecord (why : EndReason) (m : MasterIndex) :
    ∀ r', (s.withEnded i why r).recordAt i = some r' →
      (s.withEnded i why r).withRecord i (some (r'.waitedBy m)) = s.withEnded i why (r.waitedBy m) := by
  intro r' hr'
  rw [State.recordAt, State.withEnded_slot] at hr'
  cases hr'
  simp [State.withRecord, State.withEnded, State.withSlot, Record.waitedBy]

theorem joinWaiters_endRecord (hr : s.recordAt i = some r) (he : s.masters[m] = some e) (why : EndReason) :
    joinWaiters i m (endRecord i why s) =
      (s.withEnded i why (r.waitedBy m)).withMaster m
        (some { e with phase := .executing, awaited := some (.release i) }) := by
  have found := congrArg SlotCell.record (s.withEnded_slot i why r)
  rw [endRecord_eq hr, joinWaiters_eq (s := s.withEnded i why r) found he, State.withEnded_withRecord why m _ found]

theorem releaseRecord_of_ending {n : Nat} (h : r.state = .ending) :
    releaseRecord m n i r s = joinWaiters i m s := by
  simp only [releaseRecord, h]

theorem releaseRecord_of_standing {n : Nat} (h : r.state = .active ∨ r.state = .dormant ∨ r.state = .suspended) :
    releaseRecord m n i r s = joinWaiters i m (endRecord i .released s) := by
  rcases h with h | h | h <;> simp only [releaseRecord, h]

theorem releaseRecord_of_pending {n : Nat} (h : r.state = .pending) :
    releaseRecord m n i r s = deferToSwitch m (.releasedAtSwitch n) (cancelRecord i .released s) := by
  simp only [releaseRecord, h]

/-- The answer at the switch, for whatever entry the master has (R109). -/
theorem deferToSwitch_eq_map (m : MasterIndex) (a : Awaited) (s : State) :
    deferToSwitch m a s =
      ({ s with switchAnswers := s.switchAnswers ++ [m] } : State).withMaster m
        ((s.masters[m]).map fun x => { (x : Master) with phase := .executing, awaited := some a }) := rfl

end Waiters

/-- The reply of a master on an UP port stands at the tail of its control queue (R107, R116). -/
theorem State.answered_of_up {s : State} {m : MasterIndex} {e : Master} (cr : CurrentRequest) (st : Status)
    (body : AnswerBody) (up : s.portUp e.port = true) :
    (s.answered m e cr st body).masters[m] = some { e with phase := .replyDue, awaited := none } ∧
      ((s.answered m e cr st body).ports[e.port]).controlQueue =
        (s.ports[e.port]).controlQueue ++ [replyTo m e cr st body] := by
  rw [State.answered, if_pos up]
  refine ⟨(State.withMaster_master ..).trans (if_pos rfl), ?_⟩
  show ((s.withControl e.port (replyTo m e cr st body)).ports[e.port]).controlQueue = _
  exact congrArg PortState.controlQueue
    (s.modPort_get_self e.port fun ps => { ps with controlQueue := ps.controlQueue ++ [replyTo m e cr st body] })

theorem State.answered_of_down {s : State} {m : MasterIndex} {e : Master} (cr : CurrentRequest) (st : Status)
    (body : AnswerBody) (down : s.portUp e.port = false) :
    (s.answered m e cr st body).masters[m] =
      if e.held = 0 then none else some { e with phase := .idle, request := none, awaited := none } := by
  rw [State.answered, if_neg (by simp [down])]
  exact (State.withMaster_master ..).trans (if_pos rfl)

/-- Settles O46: the refusals in their order, then the record by its state. -/
theorem releaseFollowsItsTable : Obligations.ReleaseFollowsItsTable := by
  intro s rq n e cr takes body permitted refused
  have may : s.mayAsk rq.port = true ↔ permitted := State.mayAsk_iff
  rw [exec_release_of_takes takes body]
  refine ⟨fun not => by rw [takeRelease_of_not_permitted takes (mt may.1 not)], fun allowed stale => ?_, ?_⟩
  · rw [takeRelease_of_stale takes (may.2 allowed) (State.resolve_none.2 stale)]
  · intro i r allowed hr number entitled waiters
    have named : s.resolve n = some i := State.resolve_eq.2 ⟨by rw [hr]; rfl, number⟩
    have owns : (rq.owns r = true ∨ rq.port = s.straps.adm) ↔ entitled :=
      or_congr_left (by simp [Request.owns])
    refine ⟨fun other => ?_, fun entitled ending => ?_, fun entitled standing => ?_, fun entitled pending => ?_⟩
    rotate_right
    intro u
    rotate_left
    · rw [takeRelease_of_not_owner takes (may.2 allowed) named hr (mt owns.1 other)]
    all_goals rw [takeRelease_of_entitled (may.2 allowed) named hr (owns.2 entitled)]
    · rw [releaseRecord_of_ending ending, joinWaiters_eq (s := s.decided) hr takes.entry, Record.waitedBy]
    · rw [releaseRecord_of_standing standing, joinWaiters_endRecord (s := s.decided) hr takes.entry, Record.waitedBy]
    · have hr : s.decided.recordAt i = some r := hr
      have quiet : Quiet s.decided u := Quiet.cancelRecord ..
      have stream : s.decided.streamOf i = n := number
      refine ⟨?_, cancelRecord_slot hr .released, fun j hj => cancelRecord_other_slot hj .released s.decided,
        cancelRecord_store hr .released, quiet.admission, quiet.switchAnswers, fun queued awaits => ?_, ?_⟩
      · rw [releaseRecord_of_pending pending, deferToSwitch_eq_map, quiet.switchAnswers]
        rfl
      · exact ⟨_, Nat.sub_le .., cancelRecord_master_of_queued (s := s.decided) hr .released takes.entry queued awaits⟩
      · intro x xr hx awaits executing hxr
        have told : u = (freeRecord i (withdraw i s.decided)).answered r.owner
            { x with held := x.held - 1 } xr .cancelled
            (.cancelled n .released) := by
          rw [← stream]
          exact cancelRecord_answered (s := s.decided) hr .released hx awaits executing hxr
        have up : (freeRecord i (withdraw i s.decided)).portUp x.port = s.portUp x.port :=
          (Quiet.freeRecord i (withdraw i s.decided)).portUp x.port
        refine ⟨fun isUp => ?_, fun isDown => ?_⟩
        · obtain ⟨master, queue⟩ := State.answered_of_up (m := r.owner)
            (e := { x with held := x.held - 1 }) xr .cancelled
            (.cancelled n .released) (up.trans isUp)
          rw [told]
          exact ⟨by rw [queue]; exact List.mem_append_right _ (List.mem_singleton.2 rfl), master⟩
        · rw [told, State.answered_of_down (e := { x with held := x.held - 1 }) xr .cancelled _ (up.trans isDown),
            Master.replyLeft, if_pos rfl]

/-! ### CLEAR_PORT and CLEAR_CELL (R38, R184, R185) -/

section Admission

variable (a : AdmissionUnit) (s : State)

/-- The state with another admission unit. -/
def State.admitting : State := { s with admission := a }

@[simp] theorem State.admitting_slots : (s.admitting a).slots = s.slots := rfl
@[simp] theorem State.admitting_store : (s.admitting a).store = s.store := rfl
@[simp] theorem State.admitting_ports : (s.admitting a).ports = s.ports := rfl
@[simp] theorem State.admitting_switchAnswers : (s.admitting a).switchAnswers = s.switchAnswers := rfl
@[simp] theorem State.admitting_admission : (s.admitting a).admission = a := rfl

theorem State.decided_eq_admitting :
    s.decided = s.admitting { s.admission with queue := s.admission.queue.tail } := rfl

theorem dropIdleMaster_admitting (m : MasterIndex) :
    dropIdleMaster m (s.admitting a) = (dropIdleMaster m s).admitting a := by
  unfold dropIdleMaster
  show (match s.masters[m] with | some e => _ | none => _) = _
  cases s.masters[m] with
  | none => rfl
  | some e =>
    by_cases h : e.phase = .idle ∧ e.held = 0
    · simp only [if_pos h]; rfl
    · simp only [if_neg h]

theorem modStation_admitting (x : Addr) (f : Station → Station) :
    modStation x f (s.admitting a) = (modStation x f s).admitting a := by
  unfold modStation
  show (match s.placeOf x with | some i => _ | none => _) = _
  cases s.placeOf x <;> rfl

theorem freeRecord_admitting (i : Slot) : freeRecord i (s.admitting a) = (freeRecord i s).admitting a := by
  unfold freeRecord
  show (match s.recordAt i with | none => _ | some r => _) = _
  cases s.recordAt i with
  | none => rfl
  | some r =>
    have held (t : State) : lowerHeld r.owner (t.admitting a) = (lowerHeld r.owner t).admitting a :=
      dropIdleMaster_admitting a (t.modMaster r.owner fun e => { e with held := e.held - 1 }) r.owner
    have pin (x : Addr) (t : State) : lowerPin x (t.admitting a) = (lowerPin x t).admitting a :=
      modStation_admitting a t x fun e => { e with pins := e.pins - 1 }
    simp only
    rw [← pin, ← pin, ← held]
    rfl

theorem answerMaster_admitting (m : MasterIndex) (st : Status) (body : AnswerBody) :
    answerMaster m st body (s.admitting a) = (answerMaster m st body s).admitting a := by
  by_cases open_ : ∃ e cr, s.masters[m] = some e ∧ e.request = some cr
  · obtain ⟨e, cr, he, hc⟩ := open_
    rw [answerMaster_eq (s := s) he hc, answerMaster_eq (s := s.admitting a) he hc]
    unfold State.answered
    show (if s.portUp e.port then _ else _) = _
    cases s.portUp e.port <;> rfl
  · have closed : ∀ e, s.masters[m] = some e → e.request = none := fun e he => by
      by_contra h
      obtain ⟨cr, hc⟩ := Option.ne_none_iff_exists'.1 h
      exact open_ ⟨e, cr, he, hc⟩
    rw [answerMaster_none (s := s) closed, answerMaster_none (s := s.admitting a) closed]

theorem cancelRecord_admitting (i : Slot) (why : EndReason) :
    cancelRecord i why (s.admitting a) = (cancelRecord i why s).admitting a := by
  have told (n : Nat) (m : MasterIndex) (t : State) :
      answerCancelled i n m why (t.admitting a) = (answerCancelled i n m why t).admitting a := by
    unfold answerCancelled
    show (match t.masters[m] with | some e => _ | none => _) = _
    cases t.masters[m] with
    | none => rfl
    | some e => by_cases h : e.awaited = some (.grant i) <;> simp only [h, if_true, if_false, answerMaster_admitting]
  cases hr : s.recordAt i with
  | none =>
    have hr' : (s.admitting a).recordAt i = none := hr
    rw [cancelRecord, hr', cancelRecord, hr]
  | some r =>
    rw [cancelRecord_eq hr, cancelRecord_eq (s := s.admitting a) hr, ← told, ← freeRecord_admitting]
    rfl

theorem endAt_admitting (f : Record → Bool) (why : EndReason) (i : Slot) :
    endAt f why i (s.admitting a) = (endAt f why i s).admitting a := by
  have found : (s.admitting a).recordAt i = s.recordAt i := rfl
  cases hr : s.recordAt i with
  | none => rw [endAt_of_free hr, endAt_of_free (found.trans hr)]
  | some r =>
    by_cases hf : f r = true
    · cases h : r.state with
      | pending => rw [endAt_of_pending hr hf h, endAt_of_pending (found.trans hr) hf h, cancelRecord_admitting]
      | ending => rw [endAt_of_spared hr (.inr h), endAt_of_spared (found.trans hr) (.inr h)]
      | active => rw [endAt_of_standing hr hf (.inl h), endAt_of_standing (found.trans hr) hf (.inl h)]; rfl
      | dormant =>
        rw [endAt_of_standing hr hf (.inr (.inl h)), endAt_of_standing (found.trans hr) hf (.inr (.inl h))]; rfl
      | suspended =>
        rw [endAt_of_standing hr hf (.inr (.inr h)), endAt_of_standing (found.trans hr) hf (.inr (.inr h))]; rfl
    · have spared : f r = false ∨ r.state = .ending := .inl (by simpa using hf)
      rw [endAt_of_spared hr spared, endAt_of_spared (found.trans hr) spared]

/-- Ending and cancelling do not look at the admission unit. -/
theorem endAll_admitting (f : Record → Bool) (why : EndReason) :
    endAll f why (s.admitting a) = (endAll f why s).admitting a := by
  rw [endAll_eq, endAll_eq]
  induction List.finRange 128 generalizing s with
  | nil => rfl
  | cons i l ih => rw [List.foldl_cons, List.foldl_cons, endAt_admitting, ih]

end Admission

section Clears

variable {s : State} {m : MasterIndex} {e : Master}

/-- A visit of a clear leaves a queued sender its entry, with one record less when its own PENDING record is
cancelled. -/
theorem endAt_master_of_queued (f : Record → Bool) (why : EndReason) (i : Slot) (he : s.masters[m] = some e)
    (queued : e.phase = .queued) (awaits : e.awaited = none) :
    ∃ held ≤ e.held, (endAt f why i s).masters[m] = some { e with held := held } ∧
      ((∀ r, s.recordAt i = some r → r.state = .pending → r.owner ≠ m) → held = e.held) := by
  rcases endAt_cases f why i s with h | ⟨r, _, _, _, h⟩ | ⟨r, hr, _, pending, h⟩
  · exact ⟨e.held, le_rfl, by rw [h, he], fun _ => rfl⟩
  · exact ⟨e.held, le_rfl, by rw [h]; exact he, fun _ => rfl⟩
  · refine ⟨_, Nat.sub_le .., by rw [h]; exact cancelRecord_master_of_queued hr why he queued awaits, fun others => ?_⟩
    rw [if_neg (others r hr pending)]
    exact Nat.sub_zero _

theorem foldl_endAt_master_of_queued (f : Record → Bool) (why : EndReason) {l : List Slot} (nodup : l.Nodup)
    (he : s.masters[m] = some e) (queued : e.phase = .queued) (awaits : e.awaited = none) :
    ∃ held ≤ e.held, (l.foldl (fun t i => endAt f why i t) s).masters[m] = some { e with held := held } ∧
      ((∀ i ∈ l, ∀ r, s.recordAt i = some r → r.state = .pending → r.owner ≠ m) → held = e.held) := by
  induction l generalizing s e with
  | nil => exact ⟨e.held, le_rfl, he, fun _ => rfl⟩
  | cons i l ih =>
    obtain ⟨fresh, nodup⟩ := List.nodup_cons.1 nodup
    obtain ⟨h₁, le₁, found₁, same₁⟩ := endAt_master_of_queued f why i he queued awaits
    obtain ⟨h₂, le₂, found₂, same₂⟩ := ih (s := endAt f why i s) (e := { e with held := h₁ }) nodup found₁ queued awaits
    refine ⟨h₂, le₂.trans le₁, found₂, fun others => ?_⟩
    rw [same₂ ?_, same₁ (others i (List.mem_cons_self ..))]
    intro j hj r hr
    have apart : j ≠ i := fun h => fresh (h ▸ hj)
    exact others j (List.mem_cons_of_mem _ hj) r
      ((congrArg SlotCell.record (endAt_other_slot f why i j s apart)).symm.trans hr)

theorem endAll_master_of_queued (f : Record → Bool) (why : EndReason) (he : s.masters[m] = some e)
    (queued : e.phase = .queued) (awaits : e.awaited = none) :
    ∃ held ≤ e.held, (endAll f why s).masters[m] = some { e with held := held } ∧
      ((∀ (i : Slot) r, s.recordAt i = some r → r.state = .pending → r.owner ≠ m) → held = e.held) := by
  obtain ⟨held, le, found, same⟩ :=
    foldl_endAt_master_of_queued f why (List.nodup_finRange 128) he queued awaits
  exact ⟨held, le, found, fun others => same fun i _ => others i⟩

variable {rq : Request} {cr : CurrentRequest} {port : Nat}

theorem exec_clearCell_of_takes (takes : s.Takes rq e cr) (body : rq.body = .clearCell) :
    exec .clearCell s = .next (settleEgress (clearRecords rq.master none .cellCleared (fun _ => true) s)) := by
  simp only [exec, execClearCell, takes.headRequest_eq, body]

theorem exec_clearPort_of_takes (takes : s.Takes rq e cr) (body : rq.body = .clearPort port) :
    exec .clearPort s = .next (settleEgress (takeClearPort rq.master port s)) := by
  simp only [exec, execClearPort, takes.headRequest_eq, body]

theorem takeClearPort_of_range (takes : s.Takes rq e cr) (h : 7 < port) :
    takeClearPort rq.master port s = s.decided.answered rq.master e cr .range (.failingField 0) := by
  rw [← takes.answer_decided, takeClearPort, portOfNat_none.2 h]
  rfl

theorem takeClearPort_of_port (p : Port) :
    takeClearPort m p.val s = clearRecords m (some p) .portCleared (fun r => r.onPort p) s := by
  rw [takeClearPort, portOfNat_eq]

end Clears

/-- The state a clear leaves, read piece by piece: the walk of the state before, and the sender's entry. -/
theorem clearRecords_frame (m : MasterIndex) (target : Option Port) (why : EndReason) (f : Record → Bool) (s : State) :
    (clearRecords m target why f s).slots = (endAll f why s).slots ∧
      (clearRecords m target why f s).store = (endAll f why s).store ∧
      (clearRecords m target why f s).ports = (endAll f why s).ports ∧
      (clearRecords m target why f s).switchAnswers = s.switchAnswers ++ [m] ∧
      (clearRecords m target why f s).admission = s.decided.admission := by
  have ended : endAll f why (leaveQueue s) = (endAll f why s).admitting s.decided.admission :=
      endAll_admitting _ s f why
  have quiet := (Quiet.endAll f why s).switchAnswers
  rw [clearRecords, ended, deferToSwitch_eq_map, State.admitting_switchAnswers, quiet]
  simp only [State.withMaster, State.admitting_slots, State.admitting_store, State.admitting_ports,
    State.admitting_admission, and_self]

/-- Settles O50: a clear is the walk of O17 with the sender's answer deferred to the switch. -/
theorem clearsReachTheirRecordsAndDeferTheirAnswer : Obligations.ClearsReachTheirRecordsAndDeferTheirAnswer := by
  intro s rq e cr takes queued awaits counted standing deferred
  have clears (target : Option Port) (why : EndReason) (f : Record → Bool) :
      deferred target why f (clearRecords rq.master target why f s) := by
    obtain ⟨slots, store, ports, answers, admission⟩ := clearRecords_frame rq.master target why f s
    obtain ⟨held, le, found, same⟩ := endAll_master_of_queued (s := s.decided) f why takes.entry queued awaits
    have before : (endAll f why s.decided).switchAnswers = s.switchAnswers :=
        (Quiet.endAll f why s.decided).switchAnswers
    have cleared : clearRecords rq.master target why f s = _ := deferToSwitch_eq_map ..
    refine ⟨?_, fun i => by rw [slots], store, fun p => by rw [ports], ⟨held, le, ?_, same⟩, answers, admission⟩
    · rw [← before]
      exact cleared
    · rw [cleared]
      refine (State.withMaster_master ..).trans ((if_pos rfl).trans ?_)
      exact congrArg (Option.map _) found
  refine ⟨fun body => ⟨_, exec_clearCell_of_takes takes body, clears none .cellCleared _⟩,
    fun port body => ⟨fun h => ?_,
    fun q hq => ?_⟩⟩
  · rw [exec_clearPort_of_takes takes body, takeClearPort_of_range takes h]
  · subst hq
    exact ⟨_, by rw [exec_clearPort_of_takes takes body, takeClearPort_of_port], clears (some q) .portCleared _⟩

end Sys2Proof.Machine

/-! SUPPORT. The calendar switch (chapter 03): the installed permutation, its order, and the longest open stretch. -/

namespace Sys2Proof.Machine

/-! ### The order of a calendar (R48) -/

theorem windowBefore_iff (a b : Window) :
    windowBefore a b = true ↔ a.offset < b.offset ∨ (a.offset = b.offset ∧ a.phase < b.phase) := by
  simp [windowBefore]

theorem windowBefore_false_iff (a b : Window) :
    windowBefore a b = false ↔ b.offset < a.offset ∨ (a.offset = b.offset ∧ b.phase ≤ a.phase) := by
  rw [← Bool.not_eq_true, windowBefore_iff]
  omega

/-- A calendar stands in the order of offset and phase. -/
def CalendarOrdered (ws : List Window) : Prop := ws.Pairwise fun a b => windowBefore b a = false

theorem insertWindow_perm (w : Window) (ws : List Window) : (insertWindow w ws).Perm (w :: ws) := by
  induction ws with
  | nil => exact .refl _
  | cons x xs ih =>
    rw [insertWindow]
    split
    · exact .refl _
    · exact (ih.cons x).trans (.swap ..)

theorem insertWindow_ordered (w : Window) {ws : List Window} (h : CalendarOrdered ws) :
    CalendarOrdered (insertWindow w ws) := by
  induction ws with
  | nil => exact List.pairwise_singleton ..
  | cons x xs ih =>
    obtain ⟨first, rest⟩ := List.pairwise_cons.1 h
    rw [insertWindow]
    split
    · next before =>
      refine List.pairwise_cons.2 ⟨fun y hy => ?_, h⟩
      rw [windowBefore_iff] at before
      rcases List.mem_cons.1 hy with rfl | hy
      · rw [windowBefore_false_iff]; omega
      · have later := (windowBefore_false_iff ..).1 (first y hy)
        rw [windowBefore_false_iff]; omega
    · next notBefore =>
      refine List.pairwise_cons.2 ⟨fun y hy => ?_, ih rest⟩
      rcases List.mem_cons.1 ((insertWindow_perm w xs).mem_iff.1 hy) with rfl | hy
      · simpa using notBefore
      · exact first y hy

theorem insertStaged_perm (staged : List StagedLeg) (ws : List Window) :
    (staged.foldl (fun c e => insertWindow e.window c) ws).Perm (ws ++ staged.map StagedLeg.window) := by
  induction staged generalizing ws with
  | nil => simp
  | cons e staged ih =>
    rw [List.foldl_cons, List.map_cons]
    exact (ih _).trans (((insertWindow_perm e.window ws).append_right _).trans List.perm_middle.symm)

theorem insertStaged_ordered (staged : List StagedLeg) {ws : List Window} (h : CalendarOrdered ws) :
    CalendarOrdered (staged.foldl (fun c e => insertWindow e.window c) ws) := by
  induction staged generalizing ws with
  | nil => exact h
  | cons e staged ih => exact ih (insertWindow_ordered e.window h)

/-! ### One port calendar at the switch (R61) -/

/-- A window as the switch leaves it: the beacon window at a pending H. -/
def Window.atPendingH (pendingH : Option Nat) (w : Window) : Window :=
  match pendingH with
  | none => w
  | some h => if w.owner = .beacon then { w with rate := h } else w

section AtPendingH

variable (ph : Option Nat) (w : Window)

@[simp] theorem Window.atPendingH_offset : (w.atPendingH ph).offset = w.offset := by
  unfold atPendingH; split <;> [rfl; (split <;> rfl)]

@[simp] theorem Window.atPendingH_length : (w.atPendingH ph).length = w.length := by
  unfold atPendingH; split <;> [rfl; (split <;> rfl)]

@[simp] theorem Window.atPendingH_phase : (w.atPendingH ph).phase = w.phase := by
  unfold atPendingH; split <;> [rfl; (split <;> rfl)]

@[simp] theorem Window.atPendingH_owner : (w.atPendingH ph).owner = w.owner := by
  unfold atPendingH; split <;> [rfl; (split <;> rfl)]

@[simp] theorem Window.atPendingH_retiring : (w.atPendingH ph).retiring = w.retiring := by
  unfold atPendingH; split <;> [rfl; (split <;> rfl)]

@[simp] theorem Window.atPendingH_none : w.atPendingH none = w := rfl

theorem windowBefore_atPendingH (v : Window) :
    windowBefore (v.atPendingH ph) (w.atPendingH ph) = windowBefore v w := by
  simp [windowBefore]

end AtPendingH

theorem switchCalendar_eq (staged : List StagedLeg) (ph : Option Nat) (cal : List Window) :
    switchCalendar staged ph cal =
      (staged.foldl (fun c e => insertWindow e.window c) (cal.filter fun w => !w.retiring)).map
        (Window.atPendingH ph) := by
  cases ph with
  | none => exact (List.map_id _).symm
  | some h => rfl

/-- The switch makes the planned view the installed calendar. -/
theorem calendarSwitch_perm (s : State) (p : Port) :
    ((calendarSwitch s).ports[p]).calendar.Perm ((s.planned p).map (Window.atPendingH s.store.pendingH)) := by
  rw [calendarSwitch_port]
  show (switchCalendar ..).Perm _
  rw [switchCalendar_eq]
  exact (insertStaged_perm ..).map _

theorem calendarSwitch_ordered {s : State} {p : Port} (h : CalendarOrdered (s.ports[p]).calendar) :
    CalendarOrdered ((calendarSwitch s).ports[p]).calendar := by
  rw [calendarSwitch_port]
  show CalendarOrdered (switchCalendar ..)
  rw [switchCalendar_eq]
  refine List.pairwise_map.2 (List.Pairwise.imp ?_ (insertStaged_ordered (s.stagedFor p) (List.Pairwise.filter _ h)))
  intro a b ab
  rwa [windowBefore_atPendingH]

/-! ### The longest open stretch (R149) -/

/-- The instances of one hypercycle: the base cycles and the windows that occupy them. -/
def instancesOf (h : Nat) (cal : List Window) : List (Nat × Window) :=
  (List.range (2 ^ h)).flatMap fun b => (cal.filter fun w => w.inBaseCycle b).map fun w => (b, w)

theorem mem_instancesOf {h : Nat} {cal : List Window} {b : Nat} {w : Window} :
    (b, w) ∈ instancesOf h cal ↔ b < 2 ^ h ∧ w ∈ cal ∧ b % 2 ^ w.rate = w.phase := by
  simp only [instancesOf, List.mem_flatMap, List.mem_range, List.mem_map, List.mem_filter, Window.inBaseCycle, occupies,
    beq_iff_eq, Prod.mk.injEq]
  constructor
  · rintro ⟨x, hx, y, ⟨hy, meets⟩, rfl, rfl⟩
    exact ⟨hx, hy, meets⟩
  · rintro ⟨hb, hw, meets⟩
    exact ⟨b, hb, w, ⟨hw, meets⟩, rfl, rfl⟩

/-- The open stretch after an instance: from its end to the nearest opening. -/
def openStretch (cycleTicks : Nat) (cal : List Window) (x : Nat × Window) : Nat :=
  ((cal.map fun v => v.distance cycleTicks x.1 (x.2.offset + x.2.length)).min?.getD 0)

theorem openStretch_nearest (cycleTicks : Nat) {cal : List Window} (b : Nat) {w : Window} (hw : w ∈ cal) :
    (∃ v ∈ cal, v.distance cycleTicks b (w.offset + w.length) = openStretch cycleTicks cal (b, w)) ∧
      ∀ v ∈ cal, openStretch cycleTicks cal (b, w) ≤ v.distance cycleTicks b (w.offset + w.length) := by
  cases hg : (cal.map fun v => v.distance cycleTicks b (w.offset + w.length)).min? with
  | none => exact absurd (List.map_eq_nil_iff.1 (List.min?_eq_none_iff.1 hg)) (List.ne_nil_of_mem hw)
  | some g =>
    obtain ⟨attained, least⟩ := List.min?_eq_some_iff.1 hg
    rw [show openStretch cycleTicks cal (b, w) = g by simp only [openStretch, hg, Option.getD_some]]
    exact ⟨List.mem_map.1 attained, fun v hv => least _ (List.mem_map_of_mem hv)⟩

theorem longestStretch_eq (cycleTicks h : Nat) (cal : List Window) :
    longestStretch cycleTicks h cal = (instancesOf h cal).foldl
      (fun m x => max m (openStretch cycleTicks cal x)) 0 := by
  simp only [longestStretch, instancesOf, List.foldl_flatMap, List.foldl_map, openStretch]

theorem openStretch_le_longest (cycleTicks : Nat) {h : Nat} {cal : List Window} {x : Nat × Window}
    (hx : x ∈ instancesOf h cal) : openStretch cycleTicks cal x ≤ longestStretch cycleTicks h cal := by
  rw [longestStretch_eq]
  exact apply_le_foldl_max _ hx 0

theorem longestStretch_attained (cycleTicks : Nat) {h : Nat} {cal : List Window} {x : Nat × Window}
    (hx : x ∈ instancesOf h cal) :
    ∃ y ∈ instancesOf h cal, longestStretch cycleTicks h cal = openStretch cycleTicks cal y := by
  rcases foldl_max_attained (openStretch cycleTicks cal) (instancesOf h cal) 0 with zero | attained
  · have bound := openStretch_le_longest cycleTicks hx
    rw [← longestStretch_eq] at zero
    exact ⟨x, hx, by omega⟩
  · rw [← longestStretch_eq] at attained
    exact attained

/-- Settles O11: the switch as a permutation of the planned view, its order, and G as the greatest open stretch. -/
theorem switchInstallsThePlannedView : Obligations.SwitchInstallsThePlannedView := by
  refine ⟨fun s p => rfl, fun s p => ⟨?_, fun h => calendarSwitch_ordered h⟩, ?_⟩
  · refine (calendarSwitch_perm s p).trans (.of_eq (List.map_congr_left fun w _ => ?_))
    cases s.store.pendingH <;> rfl
  · intro s p t cal h isInstance stretch
    have longest : (t.ports[p]).longestOpen = longestStretch s.cycleTicks h cal := by
      show ((calendarSwitch s).ports[p]).longestOpen =
        longestStretch s.cycleTicks s.switchH ((calendarSwitch s).ports[p]).calendar
      rw [calendarSwitch_port]
    rw [longest]
    refine ⟨fun b w inst => ?_, ?_⟩
    · exact ⟨_, openStretch_le_longest _ (mem_instancesOf.2 inst), openStretch_nearest _ b inst.2.1⟩
    · rintro ⟨b, w, inst⟩
      obtain ⟨⟨b', w'⟩, inst', attained⟩ := longestStretch_attained s.cycleTicks (mem_instancesOf.2 inst)
      rw [mem_instancesOf] at inst'
      exact ⟨b', w', inst', by rw [attained]; exact openStretch_nearest _ b' inst'.2.1⟩

end Sys2Proof.Machine

/-! SUPPORT. The placement search (chapter 04): what each part of it finds, what it leaves out, and the order of the
passes. -/

namespace Sys2Proof.Machine

/-! ### Collision (R51) -/

theorem phasesAgree_iff {ka pa kb pb : Nat} (ha : pa < 2 ^ ka) (hb : pb < 2 ^ kb) :
    phasesAgree ka pa kb pb = true ↔ ∃ n, n % 2 ^ ka = pa ∧ n % 2 ^ kb = pb := by
  rw [phasesAgree, beq_iff_eq]
  constructor
  · intro h
    rcases Nat.le_total ka kb with le | le
    · rw [Nat.min_eq_left le, Nat.mod_eq_of_lt ha] at h
      exact ⟨pb, h.symm, Nat.mod_eq_of_lt hb⟩
    · rw [Nat.min_eq_right le, Nat.mod_eq_of_lt hb] at h
      exact ⟨pa, Nat.mod_eq_of_lt ha, h⟩
  · rintro ⟨n, rfl, rfl⟩
    rw [Nat.mod_mod_of_dvd _ (Nat.pow_dvd_pow 2 (Nat.min_le_left ..)),
      Nat.mod_mod_of_dvd _ (Nat.pow_dvd_pow 2 (Nat.min_le_right ..))]

theorem collide_iff {a b : Window} (ha : a.phase < 2 ^ a.rate) (hb : b.phase < 2 ^ b.rate) :
    collide a b = true ↔ a.offset < b.offset + b.length ∧ b.offset < a.offset + a.length ∧
      ∃ n, n % 2 ^ a.rate = a.phase ∧ n % 2 ^ b.rate = b.phase := by
  rw [← phasesAgree_iff ha hb, collide]
  simp [and_assoc]

/-! ### Candidates (R83) -/

section Candidates

variable {s : State} {l : LegPlan} {k ph o : Nat}

theorem State.hasRoom_iff {p : Port} :
    s.hasRoom p = true ↔ ((s.planned p).filter fun w => decide (w.owner ≠ .beacon)).length < 32 := by
  have same (w : Window) : w.reserves = decide (w.owner ≠ .beacon) := by
    rw [Window.reserves, Bool.eq_iff_iff, decide_eq_true_iff, bne_iff_ne]
  rw [State.hasRoom, decide_eq_true_iff, List.filter_congr fun w _ => same w]

theorem State.loadTest_iff :
    s.loadTest l k ph = true ↔
      ∀ b < 2 ^ s.time.hExp, b % 2 ^ k = ph → loadOf (s.planned l.egress) b + l.length ≤ l.cap := by
  simp only [State.loadTest, List.all_eq_true, List.mem_range, Bool.or_eq_true, Bool.not_eq_true', decide_eq_true_iff,
    occupies, beq_eq_false_iff_ne, ne_eq, ← imp_iff_not_or]

/-- A window of the leg's length at the offset. -/
def LegPlan.windowAt (l : LegPlan) (k ph o : Nat) : Window :=
  { offset := o, length := l.length, rate := k, phase := ph, owner := .beacon, retiring := false }

theorem collide_windowAt (w : Window) :
    collide w (l.windowAt k ph o) = (overlaps w o l.length && phasesAgree w.rate w.phase k ph) := by
  rw [collide, overlaps, LegPlan.windowAt, Bool.and_comm (decide (o < w.offset + w.length))]

theorem State.occupied_clear_iff :
    ((s.occupied l.egress k ph).all fun w => !overlaps w o l.length) = true ↔
      ∀ w ∈ s.planned l.egress, collide w (l.windowAt k ph o) = false := by
  simp only [State.occupied, List.all_eq_true, List.mem_filter, Bool.not_eq_true', collide_windowAt, and_imp,
    Bool.and_eq_false_iff]
  refine forall_congr' fun w => forall_congr' fun _ => ⟨fun h => ?_, fun h agree => ?_⟩
  · cases agree : phasesAgree w.rate w.phase k ph
    · exact .inr rfl
    · exact .inl (h agree)
  · exact h.resolve_right (by simp [agree])

theorem State.isCandidate_iff :
    s.isCandidate l k ph o = true ↔
      ((s.planned l.egress).filter fun w => decide (w.owner ≠ .beacon)).length < 32 ∧
      (∀ b < 2 ^ s.time.hExp, b % 2 ^ k = ph → loadOf (s.planned l.egress) b + l.length ≤ l.cap) ∧
      o % 16 = 0 ∧ o + l.length ≤ s.cycleTicks ∧
      ∀ w ∈ s.planned l.egress, collide w (l.windowAt k ph o) = false := by
  simp only [State.isCandidate, Bool.and_eq_true, State.hasRoom_iff, State.loadTest_iff, State.occupied_clear_iff,
    beq_iff_eq, decide_eq_true_iff, and_assoc]

end Candidates

/-! ### The lowest candidate of a phase (R83) -/

/-- The answer of a search for the least number from `lo` on for which `P` holds. -/
def LeastFrom (P : Nat → Prop) (lo : Nat) : Option Nat → Prop
  | none => ∀ o, lo ≤ o → ¬P o
  | some r => lo ≤ r ∧ P r ∧ ∀ o, lo ≤ o → P o → r ≤ o

theorem le_ceil16 (n : Nat) : n ≤ ceil16 n := by unfold ceil16; omega

theorem ceil16_le {n o : Nat} (h : n ≤ o) (grain : o % 16 = 0) : ceil16 n ≤ o := by unfold ceil16; omega

theorem ceil16_mod (n : Nat) : ceil16 n % 16 = 0 := Nat.mul_mod_left ..

/-- A search may start at the next number that can hold. -/
theorem LeastFrom.lower {P : Nat → Prop} {lo hi : Nat} {r : Option Nat} (le : lo ≤ hi)
    (skip : ∀ o, lo ≤ o → P o → hi ≤ o) (h : LeastFrom P hi r) : LeastFrom P lo r := by
  cases r with
  | none => exact fun o ho held => h o (skip o ho held) held
  | some r =>
    obtain ⟨from_, held, least⟩ := h
    exact ⟨le.trans from_, held, fun o ho held => least o (skip o ho held) held⟩

/-- An offset on the grain within L that overlaps no window. -/
def FreeAt (occ : List Window) (len cycleTicks o : Nat) : Prop :=
  o % 16 = 0 ∧ o + len ≤ cycleTicks ∧ ∀ w ∈ occ, overlaps w o len = false

/-- The windows that end after an offset: those a search from there can still meet. -/
def endingAfter (occ : List Window) (o : Nat) : List Window := occ.filter fun w => o < w.offset + w.length

theorem overlaps_iff {w : Window} {o len : Nat} :
    overlaps w o len = true ↔ o < w.offset + w.length ∧ w.offset < o + len := by
  simp [overlaps]

theorem overlaps_false_iff {w : Window} {o len : Nat} :
    overlaps w o len = false ↔ w.offset + w.length ≤ o ∨ o + len ≤ w.offset := by
  rw [← Bool.not_eq_true, overlaps_iff]
  omega

/-- A window that is passed is not met again. -/
theorem endingAfter_lt {occ : List Window} {w : Window} {o o' : Nat} (hw : w ∈ occ) (before : o < w.offset + w.length)
    (passed : w.offset + w.length ≤ o') : (endingAfter occ o').length < (endingAfter occ o).length := by
  have sub : (endingAfter occ o').Sublist (endingAfter occ o) := by
    refine List.monotone_filter_right occ fun v hv => ?_
    simp only [decide_eq_true_iff] at hv ⊢
    omega
  refine lt_of_le_of_ne sub.length_le fun same => ?_
  have kept : w ∈ endingAfter occ o' := by
    rw [sub.eq_of_length same]
    exact List.mem_filter.2 ⟨hw, decide_eq_true before⟩
  have still := of_decide_eq_true (List.mem_filter.1 kept).2
  omega

/-- The search finds the least free offset, given a step for each window it can meet. -/
theorem lowestFree_least (occ : List Window) (len cycleTicks : Nat) {fuel o : Nat} (grain : o % 16 = 0)
    (enough : (endingAfter occ o).length < fuel) :
    LeastFrom (FreeAt occ len cycleTicks) o (lowestFree occ len cycleTicks fuel o) := by
  induction fuel generalizing o with
  | zero => omega
  | succ fuel ih =>
    rw [lowestFree]
    split
    · rintro o' ho ⟨-, inside, -⟩
      omega
    split
    · next inside none =>
      exact ⟨le_rfl, ⟨grain, by omega, by simpa using none⟩, fun o' ho _ => ho⟩
    · next inside w found =>
      have hw := List.mem_of_find?_eq_some found
      obtain ⟨before, meets⟩ := (overlaps_iff (o := o) (len := len)).1 (by simpa using List.find?_some found)
      have past := le_ceil16 (w.offset + w.length)
      have fewer := endingAfter_lt hw before past
      refine (ih (ceil16_mod _) (by omega)).lower (by omega) ?_
      rintro o' ho ⟨grain', -, clear⟩
      refine ceil16_le ?_ grain'
      have apart := overlaps_false_iff.1 (clear w hw)
      omega

section Lowest

variable (s : State) (l : LegPlan) (k ph : Nat)

theorem State.lowestCandidate_least (lo : Nat) :
    LeastFrom (fun o => s.isCandidate l k ph o = true) lo (s.lowestCandidate l k ph lo) := by
  have holds (o : Nat) : s.isCandidate l k ph o = true ↔ (s.hasRoom l.egress && s.loadTest l k ph) = true ∧
      FreeAt (s.occupied l.egress k ph) l.length s.cycleTicks o := by
    simp [State.isCandidate, FreeAt, and_assoc]
  rw [State.lowestCandidate]
  split
  · next open_ =>
    have least := lowestFree_least (s.occupied l.egress k ph) l.length s.cycleTicks (ceil16_mod lo)
      (Nat.lt_succ_of_le (List.length_filter_le ..))
    have same : (fun o => s.isCandidate l k ph o = true) =
        FreeAt (s.occupied l.egress k ph) l.length s.cycleTicks :=
      funext fun o => propext ((holds o).trans (and_iff_right open_))
    rw [same]
    exact least.lower (le_ceil16 lo) fun o ho free => ceil16_le ho free.1
  · next closed =>
    exact fun o _ candidate => closed ((holds o).1 candidate).1

theorem State.lowestCandidate_some {lo o : Nat} (h : s.lowestCandidate l k ph lo = some o) :
    lo ≤ o ∧ s.isCandidate l k ph o = true ∧ ∀ o', lo ≤ o' → s.isCandidate l k ph o' = true → o ≤ o' := by
  have least := s.lowestCandidate_least l k ph lo
  rwa [h] at least

theorem State.lowestCandidate_none {lo : Nat} (h : s.lowestCandidate l k ph lo = none) {o : Nat} (ho : lo ≤ o) :
    s.isCandidate l k ph o = false := by
  have least := s.lowestCandidate_least l k ph lo
  rw [h] at least
  exact Bool.eq_false_iff.2 (least o ho)

end Lowest

/-! ### The return leg (R87) -/

section Return

variable {s : State} {l0 : LegPlan} {ret : Option LegPlan} {turnaround k ph o : Nat}

/-- With the forward window at `o`, a claimed return leg has no candidate. -/
def State.NoReturn (s : State) (l0 : LegPlan) (ret : Option LegPlan) (turnaround k ph o : Nat) : Prop :=
  ∃ l1, ret = some l1 ∧ ∀ o1, o + l0.length + turnaround ≤ o1 → s.isCandidate l1 k ph o1 = false

/-- A later forward window leaves no more room for the return (assumption 29). -/
theorem State.NoReturn.later {o' : Nat} (h : s.NoReturn l0 ret turnaround k ph o) (le : o ≤ o') :
    s.NoReturn l0 ret turnaround k ph o' := by
  obtain ⟨l1, hl, none⟩ := h
  exact ⟨l1, hl, fun o1 ho => none o1 (by omega)⟩

theorem State.withReturn_none (h : s.withReturn l0 ret turnaround k ph o = none) :
    s.NoReturn l0 ret turnaround k ph o := by
  unfold State.withReturn at h
  split at h
  · cases h
  · exact ⟨_, rfl, fun o1 ho => s.lowestCandidate_none _ k ph (Option.map_eq_none_iff.1 h) ho⟩

theorem State.withReturn_some {place : Placement} (h : s.withReturn l0 ret turnaround k ph o = some place) :
    place.phase = ph ∧ place.offset0 = o ∧ ∀ l1, ret = some l1 → ∃ o1, place.offset1 = some o1 ∧
      s.lowestCandidate l1 k ph (o + l0.length + turnaround) = some o1 := by
  unfold State.withReturn at h
  split at h
  · cases h
    exact ⟨rfl, rfl, fun l1 hl => by cases hl⟩
  · obtain ⟨o1, found, rfl⟩ := Option.map_eq_some_iff.1 h
    exact ⟨rfl, rfl, fun l1 hl => by cases hl; exact ⟨o1, rfl, found⟩⟩

theorem State.exactPlace_some {place : Placement} (h : s.exactPlace l0 ret turnaround k ph o = some place) :
    s.isCandidate l0 k ph o = true ∧ s.withReturn l0 ret turnaround k ph o = some place := by
  unfold State.exactPlace at h
  split at h
  · next candidate => exact ⟨candidate, h⟩
  · cases h

theorem State.exactPlace_none (h : s.exactPlace l0 ret turnaround k ph o = none)
    (candidate : s.isCandidate l0 k ph o = true) : s.NoReturn l0 ret turnaround k ph o := by
  rw [State.exactPlace, if_pos candidate] at h
  exact State.withReturn_none h

end Return

/-! ### The passes (R84) -/

/-- The pass considers offset `o` of phase `ph`. -/
def SearchPass.Covers (ps : SearchPass) (ph o : Nat) : Prop :=
  ps.phase = ph ∧ ps.lo ≤ o ∧ ∀ hi, ps.below = some hi → o < hi

section Passes

variable {s : State} {l0 : LegPlan} {ret : Option LegPlan} {turnaround k : Nat} {ps : SearchPass}

theorem State.searchPass_none (h : s.searchPass l0 ret turnaround k ps = none) {ph o : Nat} (covers : ps.Covers ph o)
    (candidate : s.isCandidate l0 k ph o = true) : s.NoReturn l0 ret turnaround k ph o := by
  obtain ⟨rfl, from_, below⟩ := covers
  unfold State.searchPass at h
  split at h
  · next none =>
    rw [s.lowestCandidate_none l0 k ps.phase none from_] at candidate
    cases candidate
  · next o' found =>
    obtain ⟨-, -, least⟩ := s.lowestCandidate_some l0 k ps.phase found
    have le := least o from_ candidate
    split at h
    · exact (State.withReturn_none h).later le
    · next outside =>
      refine absurd ?_ outside
      rw [Option.all_eq_true]
      exact fun hi hhi => decide_eq_true (le.trans_lt (below hi hhi))

theorem State.searchPass_some {place : Placement} (h : s.searchPass l0 ret turnaround k ps = some place) :
    ps.Covers place.phase place.offset0 ∧ s.isCandidate l0 k place.phase place.offset0 = true ∧
      s.withReturn l0 ret turnaround k place.phase place.offset0 = some place ∧
      ∀ o, ps.lo ≤ o → s.isCandidate l0 k place.phase o = true → place.offset0 ≤ o := by
  unfold State.searchPass at h
  split at h
  · cases h
  · next o found =>
    obtain ⟨from_, candidate, least⟩ := s.lowestCandidate_some l0 k ps.phase found
    split at h
    · next inside =>
      obtain ⟨hph, ho, -⟩ := State.withReturn_some h
      refine ⟨⟨hph.symm, ho ▸ from_, fun hi hhi => ?_⟩, ?_, ?_, ?_⟩
      · rw [ho]
        exact of_decide_eq_true ((Option.all_eq_true ..).1 inside hi hhi)
      · rwa [hph, ho]
      · rwa [hph, ho]
      · rwa [hph, ho]
    · cases h

/-- The number of the pass that considers offset `o` of phase `ph`, from phase `first` and offset `from0` on. -/
def passRank (k first from0 ph o : Nat) : Nat :=
  if ph = first then (if from0 ≤ o then 0 else 2 ^ k) else (ph + 2 ^ k - first) % 2 ^ k

/-- The passes by number: the phases in cyclic order from the first, which comes again at the end. -/
theorem searchPasses_get {p0 o0 : Nat} (h : p0 < 2 ^ k) (n : Nat) :
    (searchPasses k p0 o0)[n]? =
      if n = 0 then some { phase := p0, lo := o0, below := none }
      else if n < 2 ^ k then
        some { phase := if p0 + n < 2 ^ k then p0 + n else p0 + n - 2 ^ k, lo := 0, below := none }
      else if n = 2 ^ k then some { phase := p0, lo := 0, below := some o0 } else none := by
  rw [searchPasses]
  cases n with
  | zero => rfl
  | succ j =>
    rw [List.cons_append, List.getElem?_cons_succ, List.getElem?_append, List.length_map, List.length_append,
      List.length_range', List.length_range, if_neg (Nat.succ_ne_zero j)]
    by_cases middle : j + 1 < 2 ^ k
    · rw [if_pos (by omega), if_pos middle, List.getElem?_map, List.getElem?_append, List.length_range']
      by_cases later : p0 + (j + 1) < 2 ^ k
      · rw [if_pos (by omega), if_pos later, List.getElem?_range' (by omega)]
        exact congrArg (fun x => some (SearchPass.mk x 0 none)) (by omega)
      · rw [if_neg (by omega), if_neg later, List.getElem?_range (by omega)]
        exact congrArg (fun x => some (SearchPass.mk x 0 none)) (by omega)
    · rw [if_neg (by omega), if_neg middle]
      by_cases last : j + 1 = 2 ^ k
      · rw [if_pos last, show j - (2 ^ k - p0 - 1 + p0) = 0 by omega]
        rfl
      · rw [if_neg last, List.getElem?_eq_none (by simp only [List.length_singleton]; omega)]

theorem passRank_of_later {first from0 ph o : Nat} (h : first < ph) (hph : ph < 2 ^ k) :
    passRank k first from0 ph o = ph - first := by
  rw [passRank, if_neg (by omega), show ph + 2 ^ k - first = ph - first + 2 ^ k by omega, Nat.add_mod_right,
    Nat.mod_eq_of_lt (by omega)]

theorem passRank_of_earlier {first from0 ph o : Nat} (h : ph < first) (hfirst : first < 2 ^ k) :
    passRank k first from0 ph o = ph + 2 ^ k - first := by
  rw [passRank, if_neg (by omega), Nat.mod_eq_of_lt (by omega)]

theorem passRank_of_covers {p0 o0 ph o n : Nat} (h : p0 < 2 ^ k) (hps : (searchPasses k p0 o0)[n]? = some ps)
    (covers : ps.Covers ph o) : ph < 2 ^ k ∧ passRank k p0 o0 ph o = n := by
  obtain ⟨phase, from_, below⟩ := covers
  rw [searchPasses_get h] at hps
  split at hps
  · cases hps
    subst phase
    exact ⟨h, by rw [passRank, if_pos rfl, if_pos from_]; omega⟩
  split at hps
  · cases hps
    simp only at phase
    split at phase
    · exact ⟨by omega, (passRank_of_later (by omega) (by omega)).trans (by omega)⟩
    · exact ⟨by omega, (passRank_of_earlier (by omega) h).trans (by omega)⟩
  split at hps
  · cases hps
    subst phase
    have before := below o0 rfl
    exact ⟨h, by rw [passRank, if_pos rfl, if_neg (by omega)]; omega⟩
  · cases hps

theorem covers_of_passRank {p0 o0 ph o : Nat} (h : p0 < 2 ^ k) (hph : ph < 2 ^ k) :
    ∃ ps, (searchPasses k p0 o0)[passRank k p0 o0 ph o]? = some ps ∧ ps.Covers ph o := by
  have nonzero : 2 ^ k ≠ 0 := (Nat.two_pow_pos k).ne'
  rcases lt_trichotomy ph p0 with earlier | rfl | later
  · rw [passRank_of_earlier earlier h, searchPasses_get h, if_neg (by omega), if_pos (by omega), if_neg (by omega)]
    exact ⟨_, rfl, by show p0 + (ph + 2 ^ k - p0) - 2 ^ k = ph; omega, Nat.zero_le _, nofun⟩
  · rw [passRank, if_pos rfl, searchPasses_get h]
    by_cases from_ : o0 ≤ o
    · rw [if_pos from_, if_pos rfl]
      exact ⟨_, rfl, rfl, from_, nofun⟩
    · rw [if_neg from_, if_neg nonzero, if_neg (lt_irrefl _), if_pos rfl]
      exact ⟨_, rfl, rfl, Nat.zero_le _, fun hi hhi => by cases hhi; omega⟩
  · rw [passRank_of_later later hph, searchPasses_get h, if_neg (by omega), if_pos (by omega), if_pos (by omega)]
    exact ⟨_, rfl, by show p0 + (ph - p0) = ph; omega, Nat.zero_le _, nofun⟩

end Passes

/-! ### The search of SEARCH mode (R82, R84, R88) -/

section Search

variable {s : State} {l0 : LegPlan} {ret : Option LegPlan} {turnaround k p0 o0 : Nat}

theorem State.search_none (h : s.search l0 ret turnaround k p0 o0 = none) {ph o : Nat} (hph : ph < 2 ^ k)
    (candidate : s.isCandidate l0 k ph o = true) : s.NoReturn l0 ret turnaround k ph o := by
  obtain ⟨ps, found, covers⟩ := covers_of_passRank (o0 := searchOffset o0 l0.length s.cycleTicks) (o := o)
    (Nat.mod_lt p0 (Nat.two_pow_pos k)) hph
  exact State.searchPass_none (List.findSome?_eq_none_iff.1 h ps (List.mem_of_getElem? found)) covers candidate

/-- The place found lies in the pass of its rank, and the passes before that one find nothing. -/
theorem State.search_some {place : Placement} (h : s.search l0 ret turnaround k p0 o0 = some place) :
    place.phase < 2 ^ k ∧ s.isCandidate l0 k place.phase place.offset0 = true ∧
      s.withReturn l0 ret turnaround k place.phase place.offset0 = some place ∧
      ∀ ph < 2 ^ k, ∀ o, s.isCandidate l0 k ph o = true →
        let rank := passRank k (p0 % 2 ^ k) (searchOffset o0 l0.length s.cycleTicks)
        rank ph o < rank place.phase place.offset0 ∨
          (rank ph o = rank place.phase place.offset0 ∧ o < place.offset0) → s.NoReturn l0 ret turnaround k ph o := by
  have first : p0 % 2 ^ k < 2 ^ k := Nat.mod_lt p0 (Nat.two_pow_pos k)
  obtain ⟨before, ps, after, split_, found, nothing⟩ := List.findSome?_eq_some_iff.1 h
  obtain ⟨covers, candidate, placed, least⟩ := State.searchPass_some found
  have here : (searchPasses k (p0 % 2 ^ k) (searchOffset o0 l0.length s.cycleTicks))[before.length]? = some ps := by
    rw [split_, List.getElem?_append_right le_rfl, Nat.sub_self]
    rfl
  obtain ⟨below, rank_⟩ := passRank_of_covers first here covers
  refine ⟨below, candidate, placed, fun ph hph o candidate' => ?_⟩
  intro rank earlier
  obtain ⟨ps', found', covers'⟩ := covers_of_passRank (o0 := searchOffset o0 l0.length s.cycleTicks) (o := o) first hph
  have rank_' : rank place.phase place.offset0 = before.length := rank_
  rw [rank_'] at earlier
  rcases earlier with lower | ⟨same, lower⟩
  · rw [split_, List.getElem?_append_left lower] at found'
    exact State.searchPass_none (nothing ps' (List.mem_of_getElem? found')) covers' candidate'
  · have both : ps' = ps := Option.some.inj (found'.symm.trans ((congrArg _ same).trans here))
    subst both
    obtain ⟨phase, from_, -⟩ := covers'
    have le := least o from_ (by rwa [← covers.1, phase])
    omega

end Search

/-- Settles O45: candidates, the search of a phase, and the search over the phases in the order of R84. -/
theorem searchMissesNoPlace : Obligations.SearchMissesNoPlace := by
  refine ⟨fun s l k ph o => State.isCandidate_iff, fun s c l0 ret => ?_, fun s l k ph lo => ⟨fun o h =>
    s.lowestCandidate_some l k ph h, fun h o ho => s.lowestCandidate_none l k ph h ho⟩,
    fun s l0 ret turnaround k p0 o0 h ph hph o candidate => State.search_none h hph candidate, ?_⟩
  · intro gap
    refine ⟨fun mode => ?_, fun mode none candidate => ?_⟩
    · exact if_neg (mt ClaimFields.exact_iff.1 mode)
    · rw [State.placeClaim, if_pos (ClaimFields.exact_iff.2 mode)] at none
      exact State.exactPlace_none none candidate
  · intro s l0 ret turnaround k p0 o0 place h onGrain from0 first rank
    obtain ⟨below, candidate, placed, earlier⟩ := State.search_some h
    refine ⟨below, candidate, fun l1 hl => ?_, earlier⟩
    obtain ⟨-, -, returns⟩ := State.withReturn_some placed
    obtain ⟨o1, offset, found⟩ := returns l1 hl
    obtain ⟨from_, candidate, -⟩ := s.lowestCandidate_some l1 k place.phase found
    exact ⟨o1, offset, from_, candidate⟩

end Sys2Proof.Machine

/-! SUPPORT. A granted claim (chapter 04): what the checks that it passed say of its slot, its legs and its place. -/

namespace Sys2Proof.Machine

section Granted

variable {s : State} {rq : Request} {c : ClaimFields} {i : Slot} {l0 : LegPlan} {ret : Option LegPlan}
  {place : Placement}

/-- What holds of a claim that the unit grants. -/
structure State.Granted (s : State) (rq : Request) (c : ClaimFields) (i : Slot) (l0 : LegPlan) (ret : Option LegPlan)
    (place : Placement) : Prop where
  noPendingH : s.store.pendingH = none
  inRange : claimRange s.time.hExp s.cycleTicks c = none
  known : s.lookup c.dest rq.addr rq.port = some l0.egress
  otherPort : l0.egress ≠ rq.port
  forward : ∃ sp, s.portSpeed l0.egress = some sp ∧ l0 = s.legPlan l0.egress sp c.frames0 c.size0
  back : ret.isSome = c.returnLeg
  backward : ∀ l1, ret = some l1 → ∃ sp, s.portSpeed rq.port = some sp ∧ l1 = s.legPlan rq.port sp c.frames1 c.size1
  slot : s.freeSlot = some i
  short : l0.length ≤ l0.cap
  backShort : ∀ l1, ret = some l1 → l1.length ≤ l1.cap
  places : c.legCount ≤ s.freePlaces
  placed : s.placeClaim c l0 ret = some place

theorem State.decidePlace_grant {j : Slot} (h : s.decidePlace c j l0 ret = .grant i l0' ret' place) :
    j = i ∧ l0 = l0' ∧ ret = ret' ∧ ¬(l0.cap < l0.length ∨ (ret.any fun l => l.cap < l.length) = true) ∧
      c.legCount ≤ s.freePlaces ∧ s.placeClaim c l0 ret = some place := by
  unfold State.decidePlace at h
  split at h
  · cases h
  split at h
  · cases h
  split at h
  · cases h
  split at h
  · cases h
  · next short _ places _ _ found =>
    cases h
    exact ⟨rfl, rfl, rfl, short, Nat.not_lt.1 places, found⟩

theorem State.decideRoom_grant {l0' : LegPlan} {ret' : Option LegPlan}
    (h : s.decideRoom rq c l0 ret = .grant i l0' ret' place) :
    ∃ j, s.freeSlot = some j ∧ s.decidePlace c j l0 ret = .grant i l0' ret' place := by
  unfold State.decideRoom at h
  split at h
  · cases h
  split at h
  · cases h
  · next j free => exact ⟨j, free, h⟩

theorem State.decidePorts_grant {q : Port} (h : s.decidePorts rq c q = .grant i l0 ret place) :
    ∃ sp0, s.portSpeed q = some sp0 ∧ ∃ ret', s.decideRoom rq c (s.legPlan q sp0 c.frames0 c.size0) ret' =
        .grant i l0 ret place ∧ ret'.isSome = c.returnLeg ∧
      ∀ l1, ret' = some l1 → ∃ sp, s.portSpeed rq.port = some sp ∧ l1 = s.legPlan rq.port sp c.frames1 c.size1 := by
  unfold State.decidePorts at h
  split at h
  · cases h
  next sp0 up0 =>
  refine ⟨sp0, up0, ?_⟩
  simp only at h
  split at h
  · next returns =>
    split at h
    · cases h
    · next sp1 up1 =>
      exact ⟨_, h, returns.symm, fun l1 hl => ⟨sp1, up1, (Option.some.inj hl).symm⟩⟩
  · next single => exact ⟨none, h, (Bool.eq_false_iff.2 single).symm, nofun⟩

/-- A grant passed every check (R77). -/
theorem State.decideClaim_grant (h : s.decideClaim rq c = .grant i l0 ret place) : s.Granted rq c i l0 ret place := by
  unfold State.decideClaim at h
  split at h
  · cases h
  next notHeld =>
  split at h
  · cases h
  split at h
  · cases h
  next range =>
  split at h
  · cases h
  next q known =>
  split at h
  · cases h
  next other =>
  obtain ⟨sp0, up0, ret', room, back, backward⟩ := State.decidePorts_grant h
  obtain ⟨j, free, decided⟩ := State.decideRoom_grant room
  obtain ⟨rfl, rfl, rfl, short, places, placed⟩ := State.decidePlace_grant decided
  obtain ⟨short0, short1⟩ := not_or.1 short
  simp only [Bool.or_eq_true, not_or, Option.isSome_iff_ne_none, not_not] at notHeld
  exact
    { noPendingH := notHeld.2
      inRange := range
      known := known
      otherPort := other
      forward := ⟨sp0, up0, rfl⟩
      back := back
      backward := backward
      slot := free
      short := Nat.not_lt.1 short0
      backShort := fun l1 hl => by simpa [hl] using short1
      places := places
      placed := placed }

theorem phase_below_of_inRange {h cycleTicks : Nat} (range : claimRange h cycleTicks c = none) (mode : c.mode = 1) :
    c.phase < 2 ^ c.rate := by
  by_contra past
  rw [claimRange_eq] at range
  simp only [mode, Nat.not_lt.1 past, and_self, if_true] at range
  split_ifs at range

/-- The place of a grant: a forward candidate, and for a return leg its lowest candidate after the turnaround. -/
theorem State.Granted.candidates (g : s.Granted rq c i l0 ret place) :
    place.phase < 2 ^ c.rate ∧ s.isCandidate l0 c.rate place.phase place.offset0 = true ∧
      s.withReturn l0 ret c.gap c.rate place.phase place.offset0 = some place := by
  have placed := g.placed
  unfold State.placeClaim at placed
  split at placed
  · next exact_ =>
    obtain ⟨candidate, returns⟩ := State.exactPlace_some placed
    obtain ⟨hph, ho, -⟩ := State.withReturn_some returns
    rw [hph, ho]
    exact ⟨phase_below_of_inRange g.inRange (ClaimFields.exact_iff.1 exact_), candidate, returns⟩
  · obtain ⟨below, candidate, returns, -⟩ := State.search_some placed
    exact ⟨below, candidate, returns⟩

theorem State.Granted.exact_place (g : s.Granted rq c i l0 ret place) (mode : c.mode = 1) :
    place.phase = c.phase ∧ place.offset0 = c.offset := by
  have placed := g.placed
  rw [State.placeClaim, if_pos (ClaimFields.exact_iff.2 mode)] at placed
  obtain ⟨hph, ho, -⟩ := State.withReturn_some (State.exactPlace_some placed).2
  exact ⟨hph, ho⟩

theorem State.Granted.back_candidate (g : s.Granted rq c i l0 ret place) {l1 : LegPlan} (hl : ret = some l1) :
    ∃ o1, place.offset1 = some o1 ∧ place.offset0 + l0.length + c.gap ≤ o1 ∧
      s.isCandidate l1 c.rate place.phase o1 = true ∧
      ∀ o, place.offset0 + l0.length + c.gap ≤ o → o < o1 → s.isCandidate l1 c.rate place.phase o = false := by
  obtain ⟨-, -, returns⟩ := State.withReturn_some g.candidates.2.2
  obtain ⟨o1, offset, found⟩ := returns l1 hl
  obtain ⟨from_, candidate, least⟩ := s.lowestCandidate_some l1 c.rate place.phase found
  refine ⟨o1, offset, from_, candidate, fun o ho lower => Bool.eq_false_iff.2 fun candidate' => ?_⟩
  have le := least o ho candidate'
  omega

/-- Where a window of a plan may lie (R55, R83). -/
def State.Fits (s : State) (l : LegPlan) (k ph : Nat) (i : Slot) (n : LegNo) (o : Nat) : Prop :=
  o % 16 = 0 ∧ l.length % 16 = 0 ∧ o + l.length ≤ s.cycleTicks ∧
    (∀ w ∈ s.planned l.egress, collide w
      { offset := o, length := l.length, rate := k, phase := ph, owner := .leg i n, retiring := false } = false) ∧
    (∀ b < 2 ^ s.time.hExp, b % 2 ^ k = ph →
      loadOf (s.planned l.egress) b + l.length ≤ s.cycleTicks * (s.ports[l.egress]).policy.share / 64) ∧
    ((s.planned l.egress).filter Window.reserves).length < 32

theorem State.fits_of_candidate {l : LegPlan} {k ph o : Nat} (i : Slot) (n : LegNo) {q : Port} {sp : Speed}
    {frames size : Nat} (plan : l = s.legPlan q sp frames size) (h : s.isCandidate l k ph o = true) :
    s.Fits l k ph i n o := by
  have room : s.hasRoom l.egress = true := by
    rw [State.isCandidate] at h
    simp only [Bool.and_eq_true] at h
    exact h.1.1.1.1
  obtain ⟨-, loads, grain, inside, clear⟩ := State.isCandidate_iff.1 h
  refine ⟨grain, by rw [plan]; exact ceil16_mod _, inside, clear, ?_, of_decide_eq_true room⟩
  intro b hb meets
  refine (loads b hb meets).trans_eq ?_
  rw [plan]
  rfl

end Granted

/-- Settles O44: collision as arithmetic, and the checks a grant has passed. -/
theorem grantedWindowsKeepTheLaws : Obligations.GrantedWindowsKeepTheLaws := by
  refine ⟨fun a b ha hb => collide_iff ha hb, ?_⟩
  intro s rq c i l0 ret place h fits
  have g := State.decideClaim_grant h
  obtain ⟨below, candidate, -⟩ := g.candidates
  obtain ⟨free, lower⟩ := State.freeSlot_eq.1 g.slot
  obtain ⟨sp0, -, plan0⟩ := g.forward
  refine ⟨g.exact_place, free, lower, below, State.fits_of_candidate i .leg0 plan0 candidate, g.back, fun l1 hl => ?_⟩
  obtain ⟨o1, offset, from_, candidate1, least⟩ := g.back_candidate hl
  obtain ⟨sp1, -, plan1⟩ := g.backward l1 hl
  have port : l1.egress = rq.port := by rw [plan1]; rfl
  exact ⟨o1, offset, by rw [port]; exact g.otherPort.symm, from_, State.fits_of_candidate i .leg1 plan1 candidate1,
    least⟩

end Sys2Proof.Machine

/-! SUPPORT. The grant of a claim (chapters 04 and 09): the pins, the record and its staged legs, the owner. -/

namespace Sys2Proof.Machine

/-! ### Addresses and their places (R167) -/

/-- Every place of the station table holds the same address, if any. -/
def State.SameAddresses (s t : State) : Prop :=
  ∀ j : Place, (t.stations[j]).map Station.addr = (s.stations[j]).map Station.addr

namespace State.SameAddresses

theorem refl (s : State) : s.SameAddresses s := fun _ => rfl

theorem trans {s t u : State} (h : s.SameAddresses t) (k : t.SameAddresses u) : s.SameAddresses u :=
  fun j => (k j).trans (h j)

theorem of_stations {s t : State} (h : t.stations = s.stations) : s.SameAddresses t := fun j => by rw [h]

theorem putStation {s : State} {j : Place} {x : Station} (hx : s.stations[j] = some x) {y : Station}
    (addr : y.addr = x.addr) : s.SameAddresses (s.putStation j (some y)) := by
  intro k
  rw [State.putStation_get]
  split
  · next h => subst h; rw [hx, Option.map_some, Option.map_some, addr]
  · rfl

theorem modStation (s : State) (a : Addr) {f : Station → Station} (addr : ∀ x, (f x).addr = x.addr) :
    s.SameAddresses (Machine.modStation a f s) := by
  unfold Machine.modStation
  split
  · next j _ =>
    cases hx : s.stations[j] with
    | none =>
      intro k
      rw [State.putStation_get]
      split
      · next h => subst h; rw [hx]; rfl
      · rfl
    | some x => exact putStation hx (addr x)
  · exact refl s

theorem lowerPin (a : Addr) (s : State) : s.SameAddresses (Machine.lowerPin a s) := modStation s a fun _ => rfl

theorem freeRecord (i : Slot) (s : State) : s.SameAddresses (Machine.freeRecord i s) := by
  unfold Machine.freeRecord
  split
  · exact refl s
  · next r _ =>
    refine trans (trans (of_stations ?_) (lowerPin r.ownerAddr _)) (lowerPin r.destAddr _)
    rw [lowerHeld_eq]
    rfl

theorem cancelRecord (i : Slot) (why : EndReason) (s : State) : s.SameAddresses (Machine.cancelRecord i why s) := by
  cases hr : s.recordAt i with
  | none => rw [Machine.cancelRecord, hr]; exact refl s
  | some r =>
    have freed : s.SameAddresses (Machine.freeRecord i (withdraw i s)) :=
      trans (of_stations (t := withdraw i s) rfl) (freeRecord i (withdraw i s))
    exact freed.trans (of_stations (cancelRecord_told hr why).stations)

theorem endAll (f : Record → Bool) (why : EndReason) (s : State) : s.SameAddresses (Machine.endAll f why s) := by
  rw [endAll_eq]
  refine foldl_related refl trans (fun i s => ?_) _ s
  rcases endAt_cases f why i s with h | ⟨r, _, _, _, h⟩ | ⟨r, _, _, _, h⟩
  · rw [h]; exact refl s
  · rw [h]; exact refl s
  · rw [h]; exact cancelRecord i why s

end State.SameAddresses

theorem State.placeOf_eq_find (s : State) (a : Addr) :
    s.placeOf a = (List.finRange 256).find? fun i => (s.stations[i]).map Station.addr == some a := by
  unfold State.placeOf
  congr
  funext i
  cases s.stations[i] <;> rfl

theorem State.SameAddresses.placeOf {s t : State} (h : s.SameAddresses t) (a : Addr) : t.placeOf a = s.placeOf a := by
  simp only [State.placeOf_eq_find, h _]

theorem State.AddressesDistinct.placeOf {s : State} (distinct : s.AddressesDistinct) {j : Place} {x : Station}
    (hx : s.stations[j] = some x) : s.placeOf x.addr = some j :=
  State.placeOf_eq hx rfl fun k y hy same => distinct k j y x hy hx same

theorem State.SameAddresses.distinct {s t : State} (h : s.SameAddresses t) (distinct : s.AddressesDistinct) :
    t.AddressesDistinct := by
  intro j k a b ha hb same
  have hj := h j
  have hk := h k
  rw [ha] at hj
  rw [hb] at hk
  obtain ⟨x, hx, xa⟩ := Option.map_eq_some_iff.1 hj.symm
  obtain ⟨y, hy, yb⟩ := Option.map_eq_some_iff.1 hk.symm
  exact distinct j k x y hx hy (by rw [xa, yb, same])

/-! ### The pins of a grant (R170) -/

section Pins

variable {s : State} {p : Port} {a : Addr} {j : Place} {x : Station}

theorem raisePin_eq (place : s.placeOf a = some j) (hx : s.stations[j] = some x) :
    raisePin a s = s.putStation j (some { x with pins := x.pins + 1 }) := by
  rw [raisePin, modStation, place]
  show s.putStation j ((s.stations[j]).map _) = _
  rw [hx]
  rfl

theorem State.putStation_putStation (s : State) (j : Place) (x y : Option Station) :
    (s.putStation j x).putStation j y = s.putStation j y := by
  simp [State.putStation, Vector.set_set]

/-- An owner's entry that stays, or moves with no pin on it (R170). -/
theorem pinOwner_of_unreported (place : s.placeOf a = some j) (hx : s.stations[j] = some x)
    (unreported : ¬(x.port ≠ p ∧ 0 < x.pins)) :
    pinOwner p a s = s.putStation j (some { x with port := p, seen := true, pins := x.pins + 1 }) := by
  have hx' : s.stations[j.val] = some x := hx
  have there : (s.putStation j (some { x with port := p, seen := true })).placeOf a = some j :=
    (State.SameAddresses.placeOf (.putStation hx (y := { x with port := p, seen := true }) rfl) a).trans place
  rw [pinOwner, place]
  simp only [Fin.getElem_fin, hx', if_neg unreported]
  rw [raisePin_eq there (State.putStation_get_self ..), State.putStation_putStation]

/-- A pinned owner's entry that moves is reported before its new pin is raised (R37, R170). -/
theorem pinOwner_of_reported (place : s.placeOf a = some j) (hx : s.stations[j] = some x)
    (reported : x.port ≠ p ∧ 0 < x.pins) :
    let moved := stationMoved a (s.putStation j (some { x with port := p, seen := true }))
    pinOwner p a s = moved.putStation j ((moved.stations[j]).map fun x => { x with pins := x.pins + 1 }) := by
  intro moved
  have hx' : s.stations[j.val] = some x := hx
  have moving := State.SameAddresses.putStation hx (y := { x with port := p, seen := true }) rfl
  have there : moved.placeOf a = some j :=
    (State.SameAddresses.placeOf (moving.trans (.endAll _ _ _)) a).trans place
  rw [pinOwner, place]
  simp only [Fin.getElem_fin, hx', if_pos reported]
  show raisePin a moved = _
  rw [raisePin, modStation, there]
  rfl

theorem pinOwner_of_unknown (unknown : s.placeOf a = none) (place : s.placeForOwner = some j) :
    pinOwner p a s = s.putStation j (some { addr := a, port := p, seen := true, pins := 1 }) := by
  simp only [pinOwner, unknown, place]

theorem State.lowestPlace_eq {f : Option Station → Bool} :
    s.lowestPlace f = some j ↔ f s.stations[j] = true ∧ ∀ k : Place, k < j → f s.stations[k] = false := by
  rw [State.lowestPlace, find_finRange_lowest]

theorem State.lowestPlace_none {f : Option Station → Bool} :
    s.lowestPlace f = none ↔ ∀ k : Place, f s.stations[k] = false := by
  rw [State.lowestPlace, find_finRange_none]

/-- A free place, the lowest. -/
theorem State.placeForOwner_of_free (free : s.stations[j] = none)
    (lower : ∀ k : Place, k < j → (s.stations[k]).isSome = true) : s.placeForOwner = some j := by
  rw [State.placeForOwner, State.lowestPlace_free.2 ⟨free, lower⟩]

/-- Else the lowest entry neither pinned nor seen. -/
theorem State.placeForOwner_of_unseen (full : ∀ k : Place, (s.stations[k]).isSome = true)
    (hx : s.stations[j] = some x) (unseen : x.pins = 0 ∧ x.seen = false)
    (lower : ∀ k : Place, k < j → ∀ y, s.stations[k] = some y → ¬(y.pins = 0 ∧ y.seen = false)) :
    s.placeForOwner = some j := by
  have found : s.lowestPlace (fun e => e.any fun e => e.pins == 0 && !e.seen) = some j := by
    refine State.lowestPlace_eq.2 ⟨by rw [hx]; simpa using unseen, fun k hk => ?_⟩
    cases hy : s.stations[k] with
    | none => rfl
    | some y => simpa using lower k hk y hy
  rw [State.placeForOwner, State.lowestPlace_full.2 full]
  simp only [found]

/-- Else the lowest unpinned one. -/
theorem State.placeForOwner_of_unpinned
    (full : ∀ k : Place, ∃ y, s.stations[k] = some y ∧ ¬(y.pins = 0 ∧ y.seen = false)) (hx : s.stations[j] = some x)
    (unpinned : x.pins = 0) (lower : ∀ k : Place, k < j → ∀ y, s.stations[k] = some y → y.pins ≠ 0) :
    s.placeForOwner = some j := by
  have full' : s.lowestPlace Option.isNone = none :=
    State.lowestPlace_full.2 fun k => by obtain ⟨y, hy, _⟩ := full k; rw [hy]; rfl
  have noneUnseen : s.lowestPlace (fun e => e.any fun e => e.pins == 0 && !e.seen) = none := by
    refine State.lowestPlace_none.2 fun k => ?_
    obtain ⟨y, hy, seen⟩ := full k
    rw [hy]
    simpa using seen
  have found : s.lowestPlace (fun e => e.any fun e => e.pins == 0) = some j := by
    refine State.lowestPlace_eq.2 ⟨by rw [hx]; simpa using unpinned, fun k hk => ?_⟩
    cases hy : s.stations[k] with
    | none => rfl
    | some y => simpa using lower k hk y hy
  rw [State.placeForOwner, full']
  simp only [noneUnseen, found]

end Pins

/-! ### The grant as one act (R90) -/

section Grant

variable {s : State} {rq : Request} {c : ClaimFields} {i : Slot} {l0 : LegPlan} {ret : Option LegPlan}
  {place : Placement}

/-- The state in which a claim is decided: its request has left the queue and no claim waits. -/
def State.claimTaken (s : State) : State :=
  { s with admission := { s.admission with queue := s.admission.queue.tail, waiting := .none } }

theorem exec_of_grant {cmd : Instr} (released : s.resetAsserted = false)
    (taken : (cmd = .claim ∧ s.admission.waiting = .none) ∨ (cmd = .takeUpWaitingClaim ∧ s.admission.waiting = .takeUp))
    (head : s.admission.queue.head? = some rq) (body : rq.body = .claim c)
    (granted : s.decideClaim rq c = .grant i l0 ret place) :
    exec cmd s = .next (settleEgress (grantClaim rq c i l0 ret place s.claimTaken)) := by
  have notReset : ¬s.resetAsserted = true := by simp [released]
  rcases taken with ⟨rfl, free⟩ | ⟨rfl, takeUp⟩
  · have headRequest : s.headRequest = some rq := by simp [State.headRequest, released, free, head]
    have same : leaveQueue s = s.claimTaken := by rw [leaveQueue, State.claimTaken, ← free]
    simp only [exec, execClaim, headRequest, body, takeClaim, granted, same]
  · have decided : State.decideClaim { s with admission := { s.admission with waiting := .none } } rq c =
        .grant i l0 ret place := granted
    simp only [exec, execTakeUpWaitingClaim, if_neg notReset, takeUp, if_true, head, body, takeClaim, decided]
    rfl

theorem set_map_set {α : Type} {n : Nat} (v : Vector (Option α) n) (m : Fin n) (f g : α → α) :
    (v.set m ((v[m]).map f)).set m (((v.set m ((v[m]).map f))[m]).map g) = v.set m ((v[m]).map (g ∘ f)) := by
  simp [Vector.set_set]

/-- The grant: the pins, then the record, its staged legs, and its owner EXECUTING with one record more. -/
theorem grantClaim_eq :
    grantClaim rq c i l0 ret place s =
      (let pinned := pinForGrant rq.port rq.addr c.dest s
       { pinned with
        slots := pinned.slots.set i
          { pinned.slots[i] with record := some (grantedRecord rq c l0 ret place), queue0 := [], queue1 := [] }
        store := { pinned.store with
          changeList := pinned.store.changeList ++ stagedLegsOf i (grantedRecord rq c l0 ret place) }
        masters := pinned.masters.set rq.master ((pinned.masters[rq.master]).map fun e =>
          { e with held := e.held + 1, phase := .executing, awaited := some (.grant i) }) }) := by
  have owner : (grantedRecord rq c l0 ret place).owner = rq.master := rfl
  simp only [grantClaim, enterRecord, raiseHeld, deferMaster, State.modMaster, State.modSlot, owner]
  simp only [set_map_set]
  rfl

end Grant

/-- A granted claim asks for another station than its sender. -/
theorem State.Granted.dest_ne {s : State} {rq : Request} {c : ClaimFields} {i : Slot} {l0 : LegPlan}
    {ret : Option LegPlan} {place : Placement} (g : s.Granted rq c i l0 ret place) : c.dest ≠ rq.addr := by
  intro same
  have known := g.known
  rw [same, State.lookup_self] at known
  exact g.otherPort (Option.some.inj known).symm

/-- Settles O43: the grant as one act, and its pins by what the station table knows of the owner. -/
theorem grantEntersTheRecordAndStagesItsLegs : Obligations.GrantEntersTheRecordAndStagesItsLegs := by
  intro s cmd rq c e i l0 ret place released isTaken head body entry granted distinct leg0 leg1 staged
    record stagedLegs taken pinned
  have legs : stagedLegsOf i record = stagedLegs := by cases ret <;> rfl
  have effect : exec cmd s = .next (settleEgress
      { pinned with
        slots := pinned.slots.set i { pinned.slots[i] with record := some record, queue0 := [], queue1 := [] }
        store := { pinned.store with changeList := pinned.store.changeList ++ stagedLegs }
        masters := pinned.masters.set rq.master ((pinned.masters[rq.master]).map fun e =>
          { e with held := e.held + 1, phase := .executing, awaited := some (.grant i) }) }) := by
    rw [exec_of_grant released isTaken head body granted, grantClaim_eq, ← legs]
    rfl
  refine ⟨effect, fun d dst known dest => ?_⟩
  intro raised made
  have other : dst.addr ≠ rq.addr := by
    rw [dest]
    exact (State.decideClaim_grant granted).dest_ne
  have pinnedDest : raisePin c.dest taken = taken.putStation d (some { dst with pins := dst.pins + 1 }) := by
    rw [← dest]
    exact raisePin_eq (s := taken) (State.AddressesDistinct.placeOf (s := taken) distinct known) known
  have eq : pinned = pinOwner rq.port rq.addr (taken.putStation d (some { dst with pins := dst.pins + 1 })) := by
    rw [← pinnedDest]
    rfl
  have kept : taken.SameAddresses (taken.putStation d (some { dst with pins := dst.pins + 1 })) :=
    .putStation known (y := { dst with pins := dst.pins + 1 }) rfl
  refine ⟨fun j own hj addr => ?_, fun unknown j => ?_⟩
  · have apart : j ≠ d := by
      rintro rfl
      exact other ((congrArg Station.addr (Option.some.inj (known.symm.trans hj))).trans addr)
    have found : (taken.putStation d (some { dst with pins := dst.pins + 1 })).stations[j] = some own :=
      (State.putStation_get_ne taken d j _ apart).trans hj
    have there : (taken.putStation d (some { dst with pins := dst.pins + 1 })).placeOf rq.addr = some j := by
      rw [kept.placeOf, ← addr]
      exact State.AddressesDistinct.placeOf (s := taken) distinct hj
    refine ⟨fun samePort => ?_, fun moves unpinned => ?_, fun moves pins => ?_⟩
    · have stays : pinned =
          { taken with stations := raised.set j (some { own with seen := true, pins := own.pins + 1 }) } := by
        rw [eq, pinOwner_of_unreported there found (fun h => h.1 samePort), ← samePort]
        rfl
      refine ⟨stays, ?_⟩
      have found : taken.masters[rq.master.val] = some e := entry
      rw [effect, stays]
      simp only [Fin.getElem_fin, found, Option.map_some]
      rfl
    · rw [eq, pinOwner_of_unreported there found (fun h => by omega), addr, unpinned]
      rfl
    · intro moved
      rw [eq, pinOwner_of_reported there found ⟨moves, pins⟩]
      rfl
  · have noEntry : (taken.putStation d (some { dst with pins := dst.pins + 1 })).placeOf rq.addr = none := by
      rw [kept.placeOf]
      exact State.placeOf_none.2 unknown
    rintro (⟨free, lower⟩ | ⟨full, ⟨x, hx, unseen⟩, lower⟩ | ⟨full, ⟨x, hx, unpinned⟩, lower⟩)
    all_goals rw [eq]
    · exact pinOwner_of_unknown noEntry (State.placeForOwner_of_free free lower)
    · exact pinOwner_of_unknown noEntry (State.placeForOwner_of_unseen full hx unseen lower)
    · exact pinOwner_of_unknown noEntry (State.placeForOwner_of_unpinned full hx unpinned lower)

end Sys2Proof.Machine

/-! SUPPORT. The bytes of the frames that the device builds (chapter 11): a frame as a row of fields, each read back
where it was written. -/

namespace Sys2Proof.Machine

/-! ### Fields written and read back -/

theorem bytesOf_length (n v : Nat) : (bytesOf n v).length = n := by simp [bytesOf]

theorem bytesOf_one (v : Nat) : bytesOf 1 v = [BitVec.ofNat 8 v] := by simp [bytesOf]

theorem bytesOf_succ (n v : Nat) : bytesOf (n + 1) v = bytesOf n (v / 256) ++ [BitVec.ofNat 8 v] := by
  have shift (i : Nat) (hi : i < n) : v / 256 ^ (n + 1 - 1 - i) = v / 256 / 256 ^ (n - 1 - i) := by
    rw [show n + 1 - 1 - i = n - 1 - i + 1 by omega, Nat.pow_succ', Nat.div_div_eq_div_mul]
  rw [bytesOf, List.range_succ, List.map_append, bytesOf]
  congr 1
  · exact List.map_congr_left fun i hi => by rw [shift i (List.mem_range.1 hi)]
  · simp

/-- The bytes of a number give it back, up to their width. -/
theorem foldl_bytesOf (n v : Nat) : (bytesOf n v).foldl (fun acc x => acc * 256 + x.toNat) 0 = v % 256 ^ n := by
  induction n generalizing v with
  | zero => simp [bytesOf, Nat.mod_one]
  | succ n ih =>
    rw [bytesOf_succ, List.foldl_append, ih, Nat.pow_succ', Nat.mod_mul]
    simp only [List.foldl_cons, List.foldl_nil, BitVec.toNat_ofNat]
    omega

/-- A field behind others is read behind them. -/
theorem fieldAt_append {xs : Frame} {o : Nat} (h : xs.length ≤ o) (ys : Frame) (n : Nat) :
    fieldAt (xs ++ ys) o n = fieldAt ys (o - xs.length) n := by
  rw [fieldAt, fieldAt, List.drop_append, List.drop_eq_nil_of_le h, List.nil_append]

@[simp] theorem fieldAt_skip {m v o : Nat} (h : m ≤ o) (ys : Frame) (n : Nat) :
    fieldAt (bytesOf m v ++ ys) o n = fieldAt ys (o - m) n := by
  rw [fieldAt_append (by rwa [bytesOf_length]), bytesOf_length]

/-- A field is read where it was written. -/
@[simp] theorem fieldAt_here (n v : Nat) (ys : Frame) : fieldAt (bytesOf n v ++ ys) 0 n = v % 256 ^ n := by
  rw [fieldAt, List.drop_zero, List.take_append_of_le_length (bytesOf_length n v).ge,
    List.take_of_length_le (bytesOf_length n v).le, foldl_bytesOf]

/-! ### The frame of a message -/

section Frames

variable (unit : Fin 16) (dest : Addr) (m : Message)

/-- What precedes the check: addresses, type, header, body and padding. -/
def checkedBytes : Frame :=
  bytesOf 6 dest.toNat ++ (bytesOf 6 (deviceAddress unit).toNat ++ (bytesOf 2 controlType ++ (bytesOf 1 m.kindCode ++
    (bytesOf 1 m.statusCode ++ (bytesOf 2 m.tag ++ (bytesOf 2 m.body.length ++
      (m.body ++ List.replicate (40 - m.body.length) 0)))))))

/-- What follows the body: padding and check. -/
def frameTail : Frame := List.replicate (40 - m.body.length) 0 ++ fcsBytes (checkedBytes unit dest m)

theorem frameOfMessage_eq :
    frameOfMessage unit dest m = checkedBytes unit dest m ++ fcsBytes (checkedBytes unit dest m) := by
  have padding : controlFrameLength - 4 - (bytesOf 6 dest.toNat ++ bytesOf 6 (deviceAddress unit).toNat ++
      bytesOf 2 controlType ++ bytesOf 1 m.kindCode ++ bytesOf 1 m.statusCode ++ bytesOf 2 m.tag ++
      bytesOf 2 m.body.length ++ m.body).length = 40 - m.body.length := by
    simp only [List.length_append, bytesOf_length, controlFrameLength]
    omega
  have checked : checkedBytes unit dest m = bytesOf 6 dest.toNat ++ bytesOf 6 (deviceAddress unit).toNat ++
      bytesOf 2 controlType ++ bytesOf 1 m.kindCode ++ bytesOf 1 m.statusCode ++ bytesOf 2 m.tag ++
      bytesOf 2 m.body.length ++ m.body ++ List.replicate (40 - m.body.length) 0 := by
    simp only [checkedBytes, List.append_assoc]
  rw [checked, ← padding]
  rfl

/-- The frame as a row: header fields, body, padding and check. -/
theorem frameOfMessage_row :
    frameOfMessage unit dest m =
      bytesOf 6 dest.toNat ++ (bytesOf 6 (deviceAddress unit).toNat ++ (bytesOf 2 controlType ++
        (bytesOf 1 m.kindCode ++ (bytesOf 1 m.statusCode ++ (bytesOf 2 m.tag ++ (bytesOf 2 m.body.length ++
          (m.body ++ frameTail unit dest m))))))) := by
  rw [frameOfMessage_eq]
  conv_lhs => arg 1; rw [checkedBytes]
  simp only [List.append_assoc, frameTail]

theorem fcsBytes_length (l : List Byte) : (fcsBytes l).length = 4 :=
  List.length_map ..

theorem checkedBytes_length (h : m.body.length ≤ 40) : (checkedBytes unit dest m).length = 60 := by
  simp only [checkedBytes, List.length_append, bytesOf_length, List.length_replicate]
  omega

theorem frameOfMessage_length (h : m.body.length ≤ 40) : (frameOfMessage unit dest m).length = 64 := by
  rw [frameOfMessage_eq, List.length_append, checkedBytes_length unit dest m h, fcsBytes_length]

theorem goodFcs_frameOfMessage (h : m.body.length ≤ 40) : goodFcs (frameOfMessage unit dest m) = true := by
  have checked := checkedBytes_length unit dest m h
  rw [goodFcs, frameOfMessage_length unit dest m h, frameOfMessage_eq, List.drop_left' checked, List.take_left' checked,
    beq_self_eq_true]

theorem destinationOf_frameOfMessage : destinationOf (frameOfMessage unit dest m) = dest := by
  rw [destinationOf, frameOfMessage_row, fieldAt_here]
  exact BitVec.eq_of_toNat_eq (by simpa using dest.isLt)

theorem sourceOf_frameOfMessage : sourceOf (frameOfMessage unit dest m) = deviceAddress unit := by
  rw [sourceOf, frameOfMessage_row, fieldAt_skip (by decide), fieldAt_here]
  exact BitVec.eq_of_toNat_eq (by simpa using (deviceAddress unit).isLt)

theorem etherTypeOf_frameOfMessage : etherTypeOf (frameOfMessage unit dest m) = 0x9A72 := by
  rw [etherTypeOf, frameOfMessage_row, fieldAt_skip (by decide), fieldAt_skip (by decide), fieldAt_here]
  rfl

theorem kindOf_frameOfMessage : kindOf (frameOfMessage unit dest m) = m.kindCode % 256 ^ 1 := by
  rw [kindOf, frameOfMessage_row]
  simp only [fieldAt_skip, fieldAt_here, Nat.reduceLeDiff, Nat.reduceSub]

theorem statusAt_frameOfMessage : fieldAt (frameOfMessage unit dest m) 15 1 = m.statusCode % 256 ^ 1 := by
  rw [frameOfMessage_row]
  simp only [fieldAt_skip, fieldAt_here, Nat.reduceLeDiff, Nat.reduceSub]

theorem tagOf_frameOfMessage : tagOf (frameOfMessage unit dest m) = BitVec.ofNat 16 m.tag := by
  rw [tagOf, frameOfMessage_row]
  simp only [fieldAt_skip, fieldAt_here, Nat.reduceLeDiff, Nat.reduceSub]
  exact BitVec.eq_of_toNat_eq (by simp)

theorem bodyLengthOf_frameOfMessage (h : m.body.length ≤ 40) :
    bodyLengthOf (frameOfMessage unit dest m) = m.body.length := by
  rw [bodyLengthOf, frameOfMessage_row]
  simp only [fieldAt_skip, fieldAt_here, Nat.reduceLeDiff, Nat.reduceSub]
  exact Nat.mod_eq_of_lt (by omega)

/-- A field of the body is read from the body and what follows it. -/
theorem bodyHolds_iff (o n v : Nat) :
    bodyHolds (frameOfMessage unit dest m) o n v ↔ fieldAt (m.body ++ frameTail unit dest m) o n = v % 256 ^ n := by
  rw [bodyHolds, frameOfMessage_row, fieldAt_skip (by omega), fieldAt_skip (by omega), fieldAt_skip (by omega),
    fieldAt_skip (by omega), fieldAt_skip (by omega), fieldAt_skip (by omega), fieldAt_skip (by omega),
    show 20 + o - 6 - 6 - 2 - 1 - 1 - 2 - 2 = o by omega]

theorem frameOfMessage_drop_header :
    (frameOfMessage unit dest m).drop 20 = m.body ++ frameTail unit dest m := by
  rw [frameOfMessage_row]
  simp only [List.drop_append, List.drop_eq_nil_of_le, bytesOf_length, Nat.reduceLeDiff, Nat.reduceSub, List.nil_append,
    List.drop_zero, Nat.zero_sub]

theorem frameOfMessage_padding (h : m.body.length ≤ 40) {k : Nat} (lo : 20 + m.body.length ≤ k) (hi : k < 60) :
    (frameOfMessage unit dest m)[k]? = some 0 := by
  have from20 : (frameOfMessage unit dest m)[k]? = ((frameOfMessage unit dest m).drop 20)[k - 20]? := by
    rw [List.getElem?_drop, show 20 + (k - 20) = k by omega]
  rw [from20, frameOfMessage_drop_header, List.getElem?_append_right (by omega), frameTail,
    List.getElem?_append_left (by rw [List.length_replicate]; omega), List.getElem?_replicate,
    if_pos (by omega)]

end Frames

end Sys2Proof.Machine

/-! SUPPORT. The bodies of replies, notices and beacons, field by field (chapter 11). -/

namespace Sys2Proof.Machine

/-! ### Codes -/

theorem speedCode_some (v : Speed) : speedCode (some v) = if v = .mb100 then 1 else 2 := by cases v <;> rfl

theorem legBit_eq (n : LegNo) : legBit n = if n = .leg0 then 0 else 1 := by cases n <;> rfl

theorem LatePolicy.code_eq (p : LatePolicy) : p.code = if p = .hold then 0 else 1 := by cases p <;> rfl

/-! ### Lengths -/

theorem grantedLeg_length (phase : Nat) (l : Leg) : (grantedLeg phase l).length = 11 := by
  simp only [grantedLeg, List.length_append, bytesOf_length]

theorem queryHead_length (cleared : Bool) (stream : Nat) (r : Record) : (queryHead cleared stream r).length = 5 := by
  simp only [queryHead, List.length_append, bytesOf_length]

theorem presentOr_length (n : Nat) (v : Option Nat) (fill : Nat) : (presentOr n v fill).length = n := bytesOf_length ..

theorem calendarEntryBytes_length (e : CalendarEntry) : (calendarEntryBytes e).length = 10 := by
  simp only [calendarEntryBytes, List.length_append, bytesOf_length]

theorem calendarEntries_length (es : List CalendarEntry) :
    ((es.map calendarEntryBytes).flatten).length = 10 * es.length := by
  induction es with
  | nil => rfl
  | cons e es ih =>
    rw [List.map_cons, List.flatten_cons, List.length_append, ih, calendarEntryBytes_length, List.length_cons]
    omega

/-- The length of the fields of a reply body, after its kind code. -/
@[simp] def AnswerBody.fieldsLength : AnswerBody → Nat
  | .kindAlone => 0
  | .failingField _ => 1
  | .quota .. => 2
  | .lengths .. => 13
  | .cancelled .. => 3
  | .stream _ => 2
  | .released .. => 4
  | .busy .. => 4
  | .heldFlag _ => 1
  | .policy .. => 7
  | .timingInUse .. => 2
  | .timing .. => 3
  | .age .. => 5
  | .cleared .. => 5
  | .portRead _ => 20
  | .granted g => if g.leg1 = none then 22 else 33
  | .queryRecord .. => 37
  | .queryLeg .. => 22
  | .calendar c => 16 + 10 * (c.entries.take 2).length

theorem answerFields_length (b : AnswerBody) : (answerFields b).length = b.fieldsLength := by
  cases b with
  | granted g =>
    cases h : g.leg1 <;> simp [answerFields, AnswerBody.fieldsLength, h, bytesOf_length, grantedLeg_length]
  | calendar c =>
    simp only [answerFields, AnswerBody.fieldsLength, List.length_append, bytesOf_length, calendarEntries_length]
  | _ =>
    simp only [answerFields, AnswerBody.fieldsLength, List.length_append, bytesOf_length, queryHead_length,
      presentOr_length, List.length_nil]

theorem AnswerBody.fieldsLength_le (b : AnswerBody) : b.fieldsLength ≤ 39 := by
  cases b with
  | granted g => rw [fieldsLength]; split <;> omega
  | calendar c => simp only [fieldsLength, List.length_take]; omega
  | _ => simp only [fieldsLength]; omega

theorem Message.body_length_le (m : Message) : m.body.length ≤ 40 := by
  cases m with
  | answer kind tag st b =>
    rw [Message.body, List.length_cons, answerFields_length]
    exact Nat.succ_le_succ b.fieldsLength_le
  | notice => simp only [Message.body, List.length_append, bytesOf_length]; omega
  | beacon => simp only [Message.body, List.length_append, bytesOf_length]; omega

/-! ### Replies, field by field -/

section Replies

variable {unit : Fin 16} {dest : Addr} {kind : Byte} {tag : BitVec 16} {st : Status} {b : AnswerBody}

@[simp] theorem answer_bodyLength :
    bodyLengthOf (frameOfMessage unit dest (.answer kind tag st b)) = b.fieldsLength + 1 := by
  rw [bodyLengthOf_frameOfMessage unit dest _ (Message.body_length_le _), Message.body, List.length_cons,
    answerFields_length]

/-- Past the kind, a field of a reply is read from the fields of its body. -/
@[simp] theorem answer_bodyHolds {o : Nat} (h : 1 ≤ o) (n v : Nat) :
    bodyHolds (frameOfMessage unit dest (.answer kind tag st b)) o n v ↔
      fieldAt (answerFields b ++ frameTail unit dest (.answer kind tag st b)) (o - 1) n = v % 256 ^ n := by
  have row : kind :: answerFields b ++ frameTail unit dest (.answer kind tag st b) =
      bytesOf 1 kind.toNat ++ (answerFields b ++ frameTail unit dest (.answer kind tag st b)) := by
    rw [bytesOf_one]
    simp
  rw [bodyHolds_iff, Message.body, row, fieldAt_skip h]

theorem answer_kind : bodyHolds (frameOfMessage unit dest (.answer kind tag st b)) 0 1 kind.toNat := by
  have row : kind :: answerFields b ++ frameTail unit dest (.answer kind tag st b) =
      bytesOf 1 kind.toNat ++ (answerFields b ++ frameTail unit dest (.answer kind tag st b)) := by
    rw [bytesOf_one]
    simp
  rw [bodyHolds_iff, Message.body, row, fieldAt_here]

end Replies

/-- The ready deadline of a leg, as a signed number in three bytes (R111). -/
theorem deadline_eq (o : Nat) :
    (o + 16777216 - forwardingLead) % 16777216 = (((o : Int) - 256) % 16777216).toNat % 16777216 := by
  simp only [forwardingLead]
  omega

/-! ### The entries of a READ_CALENDAR answer -/

/-- Entry `k` stands ten bytes behind the one before it. -/
theorem calendarEntry_at {es : List CalendarEntry} {k : Nat} {x : CalendarEntry} (h : es[k]? = some x) (ys : Frame) :
    ∃ zs, ∀ o n, fieldAt ((es.map calendarEntryBytes).flatten ++ ys) (10 * k + o) n =
      fieldAt (calendarEntryBytes x ++ zs) o n := by
  induction es generalizing k with
  | nil => cases h
  | cons e es ih =>
    rw [List.map_cons, List.flatten_cons, List.append_assoc]
    cases k with
    | zero =>
      cases h
      exact ⟨_, fun o n => by rw [Nat.mul_zero, Nat.zero_add]⟩
    | succ k =>
      obtain ⟨zs, found⟩ := ih h
      refine ⟨zs, fun o n => ?_⟩
      rw [fieldAt_append (by rw [calendarEntryBytes_length]; omega), calendarEntryBytes_length, ← found,
        show 10 * (k + 1) + o - 10 = 10 * k + o by omega]

theorem calendar_entries_at (c : CalendarReading) (ys : Frame) (o n : Nat) :
    fieldAt (answerFields (.calendar c) ++ ys) (16 + o) n =
      fieldAt (((c.entries.take 2).map calendarEntryBytes).flatten ++ ys) o n := by
  simp only [answerFields, List.append_assoc]
  iterate 11 rw [fieldAt_skip (by omega)]
  congr 1
  omega

section Reports

variable (unit : Fin 16) (dest : Addr) (kind : Byte) (tag : BitVec 16) (st : Status)

theorem portRead_fields (r : PortReading) :
    let f := frameOfMessage unit dest (.answer kind tag st (.portRead r))
    bodyLengthOf f = 21 ∧ bodyHolds f 1 1 r.port.val ∧ bodyHolds f 2 2 r.receiveErrors.toNat ∧
      bodyHolds f 4 2 r.strays.toNat ∧ bodyHolds f 6 2 r.openDrops.toNat ∧
      (bodyHolds f 8 1 r.link.code ∧ bodyHolds f 9 1 r.link.goodSamples ∧ bodyHolds f 10 1 (speedCode r.link.speed)) ∧
      bodyHolds f 11 1 r.policy.share ∧ bodyHolds f 12 2 r.policy.jitter ∧ bodyHolds f 14 1 r.policy.missLimit ∧
      bodyHolds f 15 1 r.policy.late.code ∧ bodyHolds f 16 1 r.policy.masterCapable.toNat ∧
      bodyHolds f 17 1 r.policy.quota ∧ bodyHolds f 18 3 r.cap := by
  simp [answerFields]

theorem granted_fields (g : GrantReading) :
    let f := frameOfMessage unit dest (.answer kind tag st (.granted g))
    let legAt (at_ : Nat) (l : Leg) : Prop :=
      bodyHolds f at_ 1 l.egress.val ∧ bodyHolds f (at_ + 1) 1 g.phase ∧ bodyHolds f (at_ + 2) 3 l.offset ∧
        bodyHolds f (at_ + 5) 3 l.length ∧ bodyHolds f (at_ + 8) 3 (((l.offset : Int) - 256) % 2 ^ 24).toNat
    bodyLengthOf f = (if g.leg1 = none then 23 else 34) ∧ bodyHolds f 1 1 (stateCode (some g.state)) ∧
      bodyHolds f 2 2 g.stream ∧ bodyHolds f 4 4 g.firstHypercycle.toNat ∧ bodyHolds f 8 2 g.generation.toNat ∧
      bodyHolds f 10 1 g.rate ∧ bodyHolds f 11 1 (if g.leg1 = none then 1 else 2) ∧ legAt 12 g.leg0 ∧
      ∀ l, g.leg1 = some l → legAt 23 l := by
  cases h : g.leg1 <;> simp [answerFields, h, grantedLeg, deadline_eq]

theorem queryRecord_fields (cleared : Bool) (stream : Nat) (r : Record) (fill : Nat) :
    let f := frameOfMessage unit dest (.answer kind tag st (.queryRecord cleared stream r fill))
    bodyLengthOf f = 38 ∧ bodyHolds f 1 1 cleared.toNat ∧ bodyHolds f 2 2 stream ∧
      bodyHolds f 4 1 (16 * stateCode (some r.state) + reasonCode r.endReason) ∧
      bodyHolds f 5 1 (byteOfFlags r.flags) ∧ bodyHolds f 6 1 (16 * r.rate + r.phase) ∧
      bodyHolds f 7 1
        (r.ownerPort.val + 8 * r.leg1.isSome.toNat + 16 * r.remaining.isSome.toNat +
          32 * r.firstHypercycle.isSome.toNat) ∧
      bodyHolds f 8 6 r.ownerAddr.toNat ∧ bodyHolds f 14 6 r.destAddr.toNat ∧
      (∀ x, r.turnaround = some x → bodyHolds f 20 2 x) ∧ (∀ x, r.remaining = some x → bodyHolds f 22 2 x) ∧
      (∀ x, r.firstHypercycle = some x → bodyHolds f 24 4 x.toNat) ∧ bodyHolds f 28 4 r.delivered.toNat ∧
      bodyHolds f 32 2 r.missedWindows.toNat ∧ bodyHolds f 34 2 r.lateFrames.toNat ∧
      bodyHolds f 36 2 r.droppedFrames.toNat := by
  simp +contextual [answerFields, queryHead, presentOr]

theorem queryLeg_fields (cleared : Bool) (stream : Nat) (r : Record) (n : LegNo) (l : Leg) (fill : Nat) :
    let f := frameOfMessage unit dest (.answer kind tag st (.queryLeg cleared stream r n l fill))
    bodyLengthOf f = 23 ∧ bodyHolds f 1 1 cleared.toNat ∧ bodyHolds f 2 2 stream ∧
      bodyHolds f 4 1 (16 * stateCode (some r.state) + reasonCode r.endReason) ∧
      bodyHolds f 5 1 (byteOfFlags r.flags) ∧ bodyHolds f 6 1 (legBit n + 1) ∧ bodyHolds f 7 1 l.ingress.val ∧
      bodyHolds f 8 1 l.egress.val ∧ bodyHolds f 9 1 l.framesPerWindow ∧ bodyHolds f 10 1 l.misses ∧
      bodyHolds f 11 1 (speedCode (some l.speed) + 4 * l.smallestLead.isSome.toNat) ∧ bodyHolds f 12 2 l.frameSize ∧
      bodyHolds f 14 3 l.offset ∧ bodyHolds f 17 3 l.length ∧
      ∀ x, l.smallestLead = some x → bodyHolds f 20 3 x := by
  simp +contextual [answerFields, queryHead, presentOr]

theorem calendar_fields (c : CalendarReading) :
    let f := frameOfMessage unit dest (.answer kind tag st (.calendar c))
    bodyLengthOf f = 17 + 10 * (c.entries.take 2).length ∧ bodyHolds f 1 1 c.port.val ∧ bodyHolds f 2 1 c.hExp ∧
      bodyHolds f 3 1 (c.pendingH.getD 0xFF) ∧ bodyHolds f 4 1 c.freePlaces ∧ bodyHolds f 5 2 c.generation.toNat ∧
      bodyHolds f 7 3 c.cap ∧ bodyHolds f 10 3 c.peak ∧ bodyHolds f 13 1 c.installed ∧ bodyHolds f 14 1 c.staged ∧
      bodyHolds f 15 1 c.first ∧ bodyHolds f 16 1 c.entries.length := by
  refine ⟨?_, ?_⟩
  · rw [answer_bodyLength]
    simp only [AnswerBody.fieldsLength]
    omega
  · simp [answerFields]

theorem calendar_entry_fields (c : CalendarReading) {k : Nat} {x : CalendarEntry} (hk : k < 2)
    (hx : c.entries[k]? = some x) :
    let f := frameOfMessage unit dest (.answer kind tag st (.calendar c))
    bodyHolds f (17 + 10 * k) 3 x.offset ∧ bodyHolds f (20 + 10 * k) 3 x.length ∧
      bodyHolds f (23 + 10 * k) 1 (16 * x.rate + x.phase) ∧ bodyHolds f (24 + 10 * k) 2 (x.stream.getD 0xFFFF) ∧
      bodyHolds f (26 + 10 * k) 1 (legBit x.leg + 2 * x.retiring.toNat + 4 * x.staged.toNat +
        16 * stateCode x.state) := by
  intro f
  have taken : (c.entries.take 2)[k]? = some x := by rw [List.getElem?_take, if_pos hk, hx]
  obtain ⟨zs, found⟩ := calendarEntry_at taken (frameTail unit dest (.answer kind tag st (.calendar c)))
  have entry (o n v : Nat) : bodyHolds f (17 + o + 10 * k) n v ↔
      fieldAt (calendarEntryBytes x ++ zs) o n = v % 256 ^ n := by
    rw [answer_bodyHolds (by omega), show 17 + o + 10 * k - 1 = 16 + (10 * k + o) by omega, calendar_entries_at, found]
  refine ⟨(entry 0 3 _).2 ?_, (entry 3 3 _).2 ?_, (entry 6 1 _).2 ?_, (entry 7 2 _).2 ?_, (entry 9 1 _).2 ?_⟩
  all_goals simp [calendarEntryBytes]

end Reports

/-! ### Notices and beacons, field by field -/

section Notices

variable (unit : Fin 16) (dest : Addr)

theorem notice_fields (kind : NoticeKind) (stream : Nat) (hypercycle : BitVec 32) (flags : EventFlags)
    (final : Option (EndReason × BitVec 32 × BitVec 16)) :
    let f := frameOfMessage unit dest (.notice kind stream hypercycle flags final)
    bodyLengthOf f = 15 ∧ bodyHolds f 0 1 kind.code ∧ bodyHolds f 1 2 stream ∧ bodyHolds f 3 4 hypercycle.toNat ∧
      bodyHolds f 7 1 (byteOfFlags flags) ∧
      (final = none → bodyHolds f 8 1 0 ∧ bodyHolds f 9 4 0 ∧ bodyHolds f 13 2 0) ∧
      ∀ why delivered missed, final = some (why, delivered, missed) →
        bodyHolds f 8 1 (reasonCode (some why)) ∧ bodyHolds f 9 4 delivered.toNat ∧ bodyHolds f 13 2 missed.toNat := by
  refine ⟨?_, ?_⟩
  · rw [bodyLengthOf_frameOfMessage unit dest _ (Message.body_length_le _)]
    simp only [Message.body, List.length_append, bytesOf_length]
  · simp +contextual [bodyHolds_iff, Message.body, reasonCode]

theorem beacon_fields (c : BeaconContent) :
    let f := frameOfMessage unit dest (.beacon c)
    bodyLengthOf f = 11 ∧ bodyHolds f 0 1 c.unit.val ∧ bodyHolds f 1 4 c.hypercycle.toNat ∧
      bodyHolds f 5 2 c.generation.toNat ∧ bodyHolds f 7 1 c.cyc.val ∧ bodyHolds f 8 1 c.hExp ∧
      bodyHolds f 9 1 c.held.toNat ∧ bodyHolds f 10 1 c.queueLength := by
  refine ⟨?_, ?_⟩
  · rw [bodyLengthOf_frameOfMessage unit dest _ (Message.body_length_le _)]
    simp only [Message.body, List.length_append, bytesOf_length]
  · simp [bodyHolds_iff, Message.body]

end Notices

/-- Settles O51: the header, then each body by its table. -/
theorem controlFramesAreSixtyFourBytes : Obligations.ControlFramesAreSixtyFourBytes := by
  refine ⟨fun unit dest m => ?_, fun unit dest m => ?_, rfl, fun unit dest => ?_⟩
  · exact ⟨frameOfMessage_length unit dest m m.body_length_le, goodFcs_frameOfMessage unit dest m m.body_length_le,
      destinationOf_frameOfMessage .., sourceOf_frameOfMessage .., etherTypeOf_frameOfMessage ..⟩
  · intro f
    refine ⟨?_, m.body_length_le, bodyLengthOf_frameOfMessage unit dest m m.body_length_le,
      fun k lo hi => frameOfMessage_padding unit dest m m.body_length_le lo hi, ?_⟩
    · rw [frameOfMessage_drop_header, List.take_left' rfl]
    · have kindAt := kindOf_frameOfMessage unit dest m
      have statusAt := statusAt_frameOfMessage unit dest m
      have tagAt := tagOf_frameOfMessage unit dest m
      cases m with
      | answer kind tag st b =>
        refine ⟨kindAt, statusAt.trans ?_, tagAt.trans (BitVec.ofNat_toNat ..), answer_kind⟩
        cases st <;> rfl
      | notice => exact ⟨kindAt, statusAt, tagAt⟩
      | beacon => exact ⟨kindAt, statusAt, tagAt⟩
  · intro stateNo reasonNo speedNo legNo flagByte
    have state (r : RecordState) : stateNo r = stateCode (some r) := by cases r <;> rfl
    have reason (r : EndReason) : reasonNo r = reasonCode (some r) := by cases r <;> rfl
    have speed (v : Speed) : speedNo v = speedCode (some v) := (speedCode_some v).symm
    have leg (n : LegNo) : legNo n = legBit n := (legBit_eq n).symm
    have flag (g : EventFlags) : flagByte g = byteOfFlags g := rfl
    refine ⟨fun kind tag st b => ?_, ?_, ?_⟩
    · intro f
      cases b with
      | kindAlone => exact answer_bodyLength
      | failingField offset => simp [f, answerFields]
      | quota held quota => simp [f, answerFields]
      | lengths w0 cap0 second =>
        rcases second with _ | ⟨w1, cap1⟩ <;> simp +contextual [f, answerFields]
      | cancelled stream cause =>
        simp [f, answerFields, reason]
      | stream n => simp [f, answerFields]
      | released stream generation => simp [f, answerFields]
      | busy phase request =>
        cases phase <;>
          simp [f, answerFields, MasterPhase.code]
      | heldFlag held => simp [f, answerFields]
      | policy port cap peak => simp [f, answerFields]
      | timingInUse records entries => simp [f, answerFields]
      | timing h generation => simp [f, answerFields]
      | age seconds sweep => simp [f, answerFields]
      | cleared target cancelled ended generation =>
        cases target <;> simp [f, answerFields]
      | portRead r =>
        obtain ⟨len, port, errors, strays, drops, link, share, jitter, miss, late, rest⟩ :=
          portRead_fields unit dest kind tag st r
        refine ⟨len, port, errors, strays, drops, ?_, share, jitter, miss, LatePolicy.code_eq r.policy.late ▸ late,
          rest⟩
        cases h : r.link with
        | down => rw [h] at link; exact link
        | comingUp good => rw [h] at link; exact link
        | up v => rw [h] at link; simp only [speed]; exact link
        | goingDown v => rw [h] at link; simp only [speed]; exact link
        | faulted => rw [h] at link; exact link
      | granted g =>
        simp only [state]
        exact granted_fields unit dest kind tag st g
      | queryRecord cleared stream r fill =>
        have fields := queryRecord_fields unit dest kind tag st cleared stream r fill
        simp only [state, flag]
        cases h : r.endReason with
        | none => rw [h] at fields; exact fields
        | some why => rw [h] at fields; simp only [reason]; exact fields
      | queryLeg cleared stream r n l fill =>
        have fields := queryLeg_fields unit dest kind tag st cleared stream r n l fill
        simp only [state, flag, leg, speed]
        cases h : r.endReason with
        | none => rw [h] at fields; exact fields
        | some why => rw [h] at fields; simp only [reason]; exact fields
      | calendar c =>
        obtain ⟨len, port, hExp, pendingH, free, generation, cap, peak, installed, staged, first, count⟩ :=
          calendar_fields unit dest kind tag st c
        refine ⟨len, port, hExp, pendingH, free, generation, cap, peak, installed, staged, first, count,
          fun k x hk hx => ?_⟩
        have fields := calendar_entry_fields unit dest kind tag st c hk hx
        simp only [leg]
        cases h : x.state with
        | none => rw [h] at fields; exact fields
        | some code => rw [h] at fields; simp only [state]; exact fields
    · intro kind stream hypercycle flags final f
      have fields := notice_fields unit dest kind stream hypercycle flags final
      simp only [reason]
      cases kind <;> exact fields
    · exact fun c => beacon_fields unit dest c

end Sys2Proof.Machine

/-! SUPPORT. What any command does to the tables, said once for every invariant: records are kept but for their counts
and states, ports but for their queues. `Calm` is the change that no table entry is born or dies by; the other moves
follow in the next file. -/

namespace Sys2Proof.Machine

/-! ### Records (R17, R19, R20, R26, R34, R42, R133) -/

/-- A leg with what was claimed of it, and no greater smallest lead. -/
structure LegKept (l l' : Leg) : Prop where
  ingress : l'.ingress = l.ingress := by rfl
  egress : l'.egress = l.egress := by rfl
  frameSize : l'.frameSize = l.frameSize := by rfl
  framesPerWindow : l'.framesPerWindow = l.framesPerWindow := by rfl
  offset : l'.offset = l.offset := by rfl
  length : l'.length = l.length := by rfl
  speed : l'.speed = l.speed := by rfl
  lead : ∀ x, l.smallestLead = some x → ∃ x' ≤ x, l'.smallestLead = some x' := by exact fun x h => ⟨x, le_rfl, h⟩

theorem LegKept.refl (l : Leg) : LegKept l l := {}

theorem LegKept.trans {l m n : Leg} (h : LegKept l m) (k : LegKept m n) : LegKept l n where
  ingress := k.ingress.trans h.ingress
  egress := k.egress.trans h.egress
  frameSize := k.frameSize.trans h.frameSize
  framesPerWindow := k.framesPerWindow.trans h.framesPerWindow
  offset := k.offset.trans h.offset
  length := k.length.trans h.length
  speed := k.speed.trans h.speed
  lead := fun x hx => by
    obtain ⟨y, yx, hy⟩ := h.lead x hx
    obtain ⟨z, zy, hz⟩ := k.lead y hy
    exact ⟨z, zy.trans yx, hz⟩

/-- No flag is lost. -/
structure FlagsKept (f g : EventFlags) : Prop where
  late : f.late = true → g.late = true := by exact id
  missed : f.missed = true → g.missed = true := by exact id
  overflow : f.overflow = true → g.overflow = true := by exact id
  oversize : f.oversize = true → g.oversize = true := by exact id
  dormantSeen : f.dormantSeen = true → g.dormantSeen = true := by exact id
  noticeLost : f.noticeLost = true → g.noticeLost = true := by exact id

theorem FlagsKept.refl (f : EventFlags) : FlagsKept f f := {}

theorem FlagsKept.trans {f g h : EventFlags} (a : FlagsKept f g) (b : FlagsKept g h) : FlagsKept f h :=
  ⟨b.late ∘ a.late, b.missed ∘ a.missed, b.overflow ∘ a.overflow, b.oversize ∘ a.oversize,
    b.dormantSeen ∘ a.dormantSeen, b.noticeLost ∘ a.noticeLost⟩

/-- A record later in its life: what was claimed stands, counts accumulate, and an end is final. With `query` a QUERY
may have cleared flags. -/
structure Aged (query : Bool) (r r' : Record) : Prop where
  owner : r'.owner = r.owner := by rfl
  ownerPort : r'.ownerPort = r.ownerPort := by rfl
  ownerAddr : r'.ownerAddr = r.ownerAddr := by rfl
  destAddr : r'.destAddr = r.destAddr := by rfl
  rate : r'.rate = r.rate := by rfl
  phase : r'.phase = r.phase := by rfl
  turnaround : r'.turnaround = r.turnaround := by rfl
  leg0 : LegKept r.leg0 r'.leg0 := by exact .refl _
  noLeg1 : r.leg1 = none → r'.leg1 = none := by exact id
  leg1 : ∀ l, r.leg1 = some l → ∃ l', r'.leg1 = some l' ∧ LegKept l l' := by exact fun l h => ⟨l, h, .refl l⟩
  flags : query = false → FlagsKept r.flags r'.flags := by exact fun _ => .refl _
  missedWindows : r.missedWindows ≤ r'.missedWindows := by exact BitVec.le_refl _
  lateFrames : r.lateFrames ≤ r'.lateFrames := by exact BitVec.le_refl _
  droppedFrames : r.droppedFrames ≤ r'.droppedFrames := by exact BitVec.le_refl _
  unlimited : r.remaining = none → r'.remaining = none := by exact id
  remaining : ∀ k, r.remaining = some k → ∃ k' ≤ k, r'.remaining = some k' := by exact fun k h => ⟨k, le_rfl, h⟩
  ending : r.state = .ending → r'.state = .ending ∧ r'.endReason = r.endReason := by exact fun h => ⟨h, rfl⟩

theorem Aged.refl (query : Bool) (r : Record) : Aged query r r := {}

theorem Aged.trans {query : Bool} {r s t : Record} (h : Aged query r s) (k : Aged query s t) : Aged query r t where
  owner := k.owner.trans h.owner
  ownerPort := k.ownerPort.trans h.ownerPort
  ownerAddr := k.ownerAddr.trans h.ownerAddr
  destAddr := k.destAddr.trans h.destAddr
  rate := k.rate.trans h.rate
  phase := k.phase.trans h.phase
  turnaround := k.turnaround.trans h.turnaround
  leg0 := h.leg0.trans k.leg0
  noLeg1 := k.noLeg1 ∘ h.noLeg1
  leg1 := fun l hl => by
    obtain ⟨m, hm, lm⟩ := h.leg1 l hl
    obtain ⟨n, hn, mn⟩ := k.leg1 m hm
    exact ⟨n, hn, lm.trans mn⟩
  flags := fun q => (h.flags q).trans (k.flags q)
  missedWindows := BitVec.le_trans h.missedWindows k.missedWindows
  lateFrames := BitVec.le_trans h.lateFrames k.lateFrames
  droppedFrames := BitVec.le_trans h.droppedFrames k.droppedFrames
  unlimited := k.unlimited ∘ h.unlimited
  remaining := fun n hn => by
    obtain ⟨n', le, hn'⟩ := h.remaining n hn
    obtain ⟨n'', le', hn''⟩ := k.remaining n' hn'
    exact ⟨n'', le'.trans le, hn''⟩
  ending := fun e => by
    obtain ⟨es, rs⟩ := h.ending e
    obtain ⟨et, rt⟩ := k.ending es
    exact ⟨et, rt.trans rs⟩

/-- A record that stays in its state or among the standing ones. -/
structure Kept (query : Bool) (r r' : Record) : Prop extends Aged query r r' where
  state : r'.state = r.state ∨ (r.state.standing = true ∧ r'.state.standing = true) := by exact .inl rfl

theorem Kept.refl (query : Bool) (r : Record) : Kept query r r := {}

/-- A record that goes from one standing state to another has not ended. -/
theorem RecordState.not_ending_of_standing {st : RecordState} (h : st.standing = true) : st ≠ .ending := by
  rintro rfl
  cases h

/-- A standing record whose legs forget their misses, in another standing state (R30, R32). -/
theorem Kept.restated {query : Bool} {r r' : Record} (legs : Aged query r r') (standing : r.state.standing = true)
    {st : RecordState} (standing' : st.standing = true) (wake : WakeSet) {dropped : BitVec 16}
    (more : r.droppedFrames ≤ dropped) :
    Kept query r { r' with state := st, wake := wake, droppedFrames := dropped } :=
  { legs with
    droppedFrames := more, state := .inr ⟨standing, standing'⟩
    ending := fun h => absurd h (RecordState.not_ending_of_standing standing) }

theorem RecordState.not_pending_of_standing {st : RecordState} (h : st.standing = true) : st ≠ .pending := by
  rintro rfl
  cases h

theorem RecordState.standing_iff {st : RecordState} :
    st.standing = true ↔ st = .active ∨ st = .dormant ∨ st = .suspended := by
  cases st <;> simp [RecordState.standing]

/-! ### Slots -/

/-- A slot whose record, if any, is kept, and whose hold queues do not outgrow their places (R129). -/
structure CalmSlot (query : Bool) (c c' : SlotCell) : Prop where
  reuse : c'.reuse = c.reuse := by rfl
  record : Option.Rel (Kept query) c.record c'.record
  queue0 : c'.queue0.length ≤ c.queue0.length ∨ c'.queue0.length ≤ 4 := by exact .inl le_rfl
  queue1 : c'.queue1.length ≤ c.queue1.length ∨ c'.queue1.length ≤ 4 := by exact .inl le_rfl

theorem rel_map {query : Bool} {o : Option Record} {f : Record → Record} (h : ∀ r, o = some r → Kept query r (f r)) :
    Option.Rel (Kept query) o (o.map f) := by
  cases o with
  | none => exact .none
  | some r => exact .some (h r rfl)

theorem rel_refl (query : Bool) (o : Option Record) : Option.Rel (Kept query) o o := by
  cases o with
  | none => exact .none
  | some r => exact .some (.refl query r)

theorem CalmSlot.refl (query : Bool) (c : SlotCell) : CalmSlot query c c := { record := rel_refl query _ }

/-! ### Ports (R48, R116, R150) -/

/-- The master whose reply a control frame is. -/
def ControlFrame.replyMaster (f : ControlFrame) : Option MasterIndex :=
  match f.cls with
  | .reply m => some m
  | .notice _ | .other => none

/-- The control frame in transmission, if any, which still holds its place (R116). -/
def Transmitter.controlFrames : Transmitter → List ControlFrame
  | .busy (.control f) _ _ => [f]
  | _ => []

theorem PortState.controlFrames_eq (ps : PortState) : ps.controlFrames = ps.tx.controlFrames ++ ps.controlQueue := rfl

theorem PortState.replyMasters_eq (ps : PortState) :
    ps.replyMasters = ps.controlFrames.filterMap ControlFrame.replyMaster := rfl

theorem ControlFrame.replyMaster_eq_some {f : ControlFrame} {m : MasterIndex} :
    f.replyMaster = some m ↔ f.cls = .reply m := by
  unfold replyMaster
  split
  · next k hk => rw [hk]; simp
  · next n hn => rw [hn]; simp
  · next hn => rw [hn]; simp

/-- The non-reply places that a transmission holds: one for a control frame that is no reply (R116). -/
def Transmitter.nonReplies : Transmitter → Nat
  | .busy (.control f) _ _ => f.nonReply.toNat
  | _ => 0

theorem PortState.nonReplies_eq_add (ps : PortState) :
    ps.nonReplies = (ps.controlQueue.filter ControlFrame.nonReply).length + ps.tx.nonReplies := rfl

theorem ControlFrame.filter_nonReply_singleton (f : ControlFrame) :
    ([f].filter ControlFrame.nonReply).length = f.nonReply.toNat := by
  cases h : f.nonReply
  · rw [List.filter_cons_of_neg (Bool.eq_false_iff.1 h), List.filter_nil, List.length_nil, Bool.toNat_false]
  · rw [List.filter_cons_of_pos h, List.filter_nil, List.length_singleton, Bool.toNat_true]

theorem Transmitter.nonReplies_eq (tx : Transmitter) :
    tx.nonReplies = (tx.controlFrames.filter ControlFrame.nonReply).length :=
  match tx with
  | .busy (.control f) _ _ => f.filter_nonReply_singleton.symm
  | .free | .busy .beacon _ _ | .busy (.window _ _) _ _ | .busy .openFrame _ _ => rfl

/-- The non-reply places taken are those of the frames that hold a place. -/
theorem PortState.nonReplies_eq (ps : PortState) :
    ps.nonReplies = (ps.controlFrames.filter ControlFrame.nonReply).length := by
  rw [nonReplies_eq_add, Transmitter.nonReplies_eq, controlFrames_eq, List.filter_append, List.length_append,
    Nat.add_comm]

/-- A port with its calendar and policy, no reply more, and no queue beyond its places. -/
structure CalmPort (ps ps' : PortState) : Prop where
  calendar : ps'.calendar = ps.calendar := by rfl
  policy : ps'.policy = ps.policy := by rfl
  replies : ps'.replyMasters.Subperm ps.replyMasters
  nonReplies : ps'.nonReplies ≤ ps.nonReplies ∨ ps'.nonReplies ≤ 8
  openQueue : ps'.openQueue.Sublist ps.openQueue ∨ (ps'.openQueue.length ≤ 64 ∧ bytesIn ps'.openQueue ≤ 32768) := by
    exact .inl (.refl _)

/-- Frames that leave their places, and none that joins. -/
theorem CalmPort.of_frames {ps ps' : PortState} (frames : ps'.controlFrames.Subperm ps.controlFrames)
    (calendar : ps'.calendar = ps.calendar) (policy : ps'.policy = ps.policy)
    (openQueue : ps'.openQueue.Sublist ps.openQueue ∨ (ps'.openQueue.length ≤ 64 ∧ bytesIn ps'.openQueue ≤ 32768)) :
    CalmPort ps ps' where
  calendar := calendar
  policy := policy
  replies := by
    obtain ⟨l, perm, sub⟩ := frames
    exact ⟨_, perm.filterMap _, sub.filterMap _⟩
  nonReplies := by
    rw [PortState.nonReplies_eq, PortState.nonReplies_eq]
    exact .inl (frames.filter _).length_le
  openQueue := openQueue

/-- The same frames in the same places. -/
theorem CalmPort.of_same {ps ps' : PortState} (tx : ps'.tx = ps.tx) (control : ps'.controlQueue = ps.controlQueue)
    (openQueue : ps'.openQueue = ps.openQueue) (calendar : ps'.calendar = ps.calendar)
    (policy : ps'.policy = ps.policy) : CalmPort ps ps' := by
  refine .of_frames (List.Perm.of_eq ?_).subperm calendar policy (.inl (openQueue ▸ .refl _))
  rw [PortState.controlFrames, PortState.controlFrames, tx, control]

/-- The transmitter changes, and with it none of the frames that hold a place. -/
theorem CalmPort.of_tx {ps ps' : PortState} (tx : ps'.tx.controlFrames.Sublist ps.tx.controlFrames)
    (control : ps'.controlQueue = ps.controlQueue) (openQueue : ps'.openQueue.Sublist ps.openQueue)
    (calendar : ps'.calendar = ps.calendar) (policy : ps'.policy = ps.policy) : CalmPort ps ps' := by
  refine .of_frames ?_ calendar policy (.inl openQueue)
  rw [PortState.controlFrames_eq, PortState.controlFrames_eq, control]
  exact (tx.append_right _).subperm

theorem CalmPort.refl (ps : PortState) : CalmPort ps ps := .of_same rfl rfl rfl rfl rfl

/-! ### The whole state -/

/-- No entry of a table is born or dies, but for the entries of the masters `ms`, whose replies have left (R98, R113):
calendars, change list, stations, request queue, straps and H stay. What is not named is free. -/
structure Calm (query : Bool) (ms : List MasterIndex) (s t : State) : Prop where
  slots : ∀ i : Slot, CalmSlot query s.slots[i] t.slots[i]
  ports : ∀ p : Port, CalmPort s.ports[p] t.ports[p]
  changeList : t.store.changeList = s.store.changeList := by rfl
  pendingH : t.store.pendingH = s.store.pendingH := by rfl
  stations : t.stations = s.stations := by rfl
  queue : t.admission.queue = s.admission.queue := by rfl
  straps : t.straps = s.straps := by rfl
  hExp : t.time.hExp = s.time.hExp := by rfl
  masters : ∀ m : MasterIndex, t.masters[m] = if m ∈ ms then (s.masters[m]).bind Master.replyLeft else s.masters[m]
  gone : s.RepliesFit → ∀ m ∈ ms, ∀ p : Port, m ∉ (t.ports[p]).replyMasters

namespace Calm

variable {query : Bool} {s t : State}

/-- A change beside the tables. -/
theorem aside (slots : t.slots = s.slots := by rfl) (ports : t.ports = s.ports := by rfl)
    (masters : t.masters = s.masters := by rfl)
    (changeList : t.store.changeList = s.store.changeList := by rfl)
    (pendingH : t.store.pendingH = s.store.pendingH := by rfl) (stations : t.stations = s.stations := by rfl)
    (queue : t.admission.queue = s.admission.queue := by rfl) (straps : t.straps = s.straps := by rfl)
    (hExp : t.time.hExp = s.time.hExp := by rfl) : Calm query [] s t where
  slots := fun i => by rw [slots]; exact .refl ..
  ports := fun p => by rw [ports]; exact .refl _
  changeList := changeList
  pendingH := pendingH
  stations := stations
  queue := queue
  straps := straps
  hExp := hExp
  masters := fun m => by rw [masters, if_neg List.not_mem_nil]
  gone := fun _ m hm => absurd hm List.not_mem_nil

theorem refl (s : State) : Calm query [] s s := aside

/-- A change of every port. -/
theorem ofPorts {x : Vector PortState 8} (h : ∀ p : Port, CalmPort s.ports[p] x[p]) :
    Calm query [] s { s with ports := x } where
  slots := fun i => .refl ..
  ports := h
  masters := fun m => (if_neg List.not_mem_nil).symm
  gone := fun _ m hm => absurd hm List.not_mem_nil

theorem mapPorts {f : PortState → PortState} (h : ∀ p : Port, CalmPort s.ports[p] (f s.ports[p])) :
    Calm query [] s { s with ports := s.ports.map f } :=
  ofPorts fun p => by
    show CalmPort s.ports[p] (s.ports.map f)[p.val]
    rw [Vector.getElem_map]
    exact h p

theorem withPort {p : Port} {ps : PortState} (h : CalmPort s.ports[p] ps) : Calm query [] s (s.withPort p ps) := by
  refine ofPorts fun q => ?_
  rw [show (s.ports.set p ps)[q] = if q = p then ps else s.ports[q] from s.modPort_get p q fun _ => ps]
  split
  · next hq => subst hq; exact h
  · exact .refl _

theorem modPort {p : Port} {f : PortState → PortState} (h : CalmPort s.ports[p] (f s.ports[p])) :
    Calm query [] s (s.modPort p f) := withPort h

theorem withSlot {i : Slot} {c : SlotCell} (h : CalmSlot query s.slots[i] c) : Calm query [] s (s.withSlot i c) where
  slots := fun j => by
    rw [show (s.withSlot i c).slots[j] = if j = i then c else s.slots[j] from s.modSlot_get i j fun _ => c]
    split
    · next hj => subst hj; exact h
    · exact .refl ..
  ports := fun p => .refl _
  masters := fun m => (if_neg List.not_mem_nil).symm
  gone := fun _ m hm => absurd hm List.not_mem_nil

theorem modSlot {i : Slot} {f : SlotCell → SlotCell} (h : CalmSlot query s.slots[i] (f s.slots[i])) :
    Calm query [] s (s.modSlot i f) := withSlot h

theorem modRecord {i : Slot} {f : Record → Record} (h : ∀ r, s.recordAt i = some r → Kept query r (f r)) :
    Calm query [] s (s.modRecord i f) := modSlot { record := rel_map h }

theorem withRecord {i : Slot} {r r' : Record} (hr : s.recordAt i = some r) (h : Kept query r r') :
    Calm query [] s (s.withRecord i (some r')) := by
  refine withSlot { record := ?_ }
  rw [show (s.slots[i]).record = some r from hr]
  exact .some h

/-- Control frames removed unsent from one port: their masters' replies have left (R118, R149). -/
theorem discard {gone : List ControlFrame} {p : Port} {ps : PortState}
    (frames : (ps.controlFrames ++ gone).Perm (s.ports[p]).controlFrames)
    (calendar : ps.calendar = (s.ports[p]).calendar) (policy : ps.policy = (s.ports[p]).policy)
    (openQueue : ps.openQueue.Sublist (s.ports[p]).openQueue) :
    Calm query (gone.filterMap ControlFrame.replyMaster) s ((discardAll gone s).withPort p ps) := by
  have sub : ps.controlFrames.Subperm (s.ports[p]).controlFrames :=
      (List.sublist_append_left ..).subperm.trans frames.subperm
  have port (q : Port) : ((discardAll gone s).withPort p ps).ports[q] = if q = p then ps else s.ports[q] := by
    rw [show ((discardAll gone s).withPort p ps).ports[q] = if q = p then ps else (discardAll gone s).ports[q] from
      (discardAll gone s).modPort_get p q fun _ => ps, discardAll_ports]
  have replies : (ps.replyMasters ++ gone.filterMap ControlFrame.replyMaster).Perm (s.ports[p]).replyMasters := by
    rw [PortState.replyMasters_eq, PortState.replyMasters_eq, ← List.filterMap_append]
    exact frames.filterMap _
  have frame := discardAll_frame gone s
  refine
    { slots := fun i => ?_, ports := fun q => ?_, changeList := ?_, pendingH := ?_, stations := ?_, queue := ?_,
      straps := ?_, hExp := ?_, masters := fun m => ?_, gone := fun fit m hm q hq => ?_ }
  · show CalmSlot query s.slots[i] (discardAll gone s).slots[i]
    rw [discardAll_slot]
    refine { record := rel_map fun r _ => ?_ }
    unfold Record.losing
    split
    · exact { flags := fun _ => { noticeLost := fun _ => rfl } }
    · exact .refl ..
  · rw [port]
    split
    · next h => subst h; exact .of_frames sub calendar policy (.inl openQueue)
    · exact .refl _
  · show (discardAll gone s).store.changeList = _; rw [frame]
  · show (discardAll gone s).store.pendingH = _; rw [frame]
  · show (discardAll gone s).stations = _; rw [frame]
  · show (discardAll gone s).admission.queue = _; rw [frame]
  · show (discardAll gone s).straps = _; rw [frame]
  · show (discardAll gone s).time.hExp = _; rw [frame]
  · refine (discardAll_master gone s m).trans ?_
    unfold masterLosing
    have same : (gone.any fun f => f.cls == .reply m) = true ↔ m ∈ gone.filterMap ControlFrame.replyMaster := by
      simp [List.mem_filterMap, ControlFrame.replyMaster_eq_some]
    by_cases h : m ∈ gone.filterMap ControlFrame.replyMaster
    · rw [if_pos (same.2 h), if_pos h]
    · rw [if_neg (mt same.1 h), if_neg h]
  · have mine : m ∈ (s.ports[p]).replyMasters := replies.mem_iff.1 (List.mem_append_right _ hm)
    rw [port] at hq
    split at hq
    · exact List.disjoint_of_nodup_append (replies.nodup_iff.2 (fit.one_each p)) hq hm
    · next other =>
      obtain ⟨e, he, atP, _⟩ := fit.due p m mine
      obtain ⟨e', he', atQ, _⟩ := fit.due q m hq
      cases he.symm.trans he'
      exact other (atQ.symm.trans atP)

end Calm

end Sys2Proof.Machine

/-! SUPPORT. The moves of which every command is made, and the operations of the model as moves. -/

namespace Sys2Proof.Machine

/-! ### What is half done between two moves -/

/-- What a command has begun and has still to finish: the master whose request has left the queue undecided, the slots
whose windows the switch has installed and whose records it has not, and the addresses pinned for a record that is
still to be entered. -/
structure Ghost where
  hand : Option MasterIndex
  toInstall : List Slot
  toEnter : List Addr

/-- Between two commands nothing is half done. -/
def Ghost.clear : Ghost := ⟨none, [], []⟩

/-! ### Moves of the master table and the request queue (R72, R97, R106, R107) -/

/-- A move of a master, with the request queue. -/
inductive MasterStep : Ghost → State → Ghost → State → Prop
  /-- An awaited answer is given (R107, R109). -/
  | told {g : Ghost} {s : State} {m : MasterIndex} {e : Master} (he : s.masters[m] = some e) (awaits : e.awaited ≠ none)
      (cr : CurrentRequest) (st : Status) (body : AnswerBody) : MasterStep g s g (s.answered m e cr st body)
  /-- The head request leaves the queue (R72). -/
  | taken {l : List Slot} {a : List Addr} {s : State} {rq : Request} (head : s.admission.queue.head? = some rq) :
      MasterStep ⟨none, l, a⟩ s ⟨some rq.master, l, a⟩ s.decided
  /-- Its master is answered at once. -/
  | answered {l : List Slot} {a : List Addr} {s : State} {m : MasterIndex} {e : Master} (he : s.masters[m] = some e)
      (cr : CurrentRequest) (st : Status) (body : AnswerBody) :
      MasterStep ⟨some m, l, a⟩ s ⟨none, l, a⟩ (s.answered m e cr st body)
  /-- Its master's answer is deferred. -/
  | deferred {l : List Slot} {a : List Addr} {s : State} {m : MasterIndex} (awaits : Awaited) :
      MasterStep ⟨some m, l, a⟩ s ⟨none, l, a⟩ (deferMaster m awaits s)
  /-- Its master has no request to be answered. -/
  | dropped {l : List Slot} {a : List Addr} {s : State} {m : MasterIndex} :
      MasterStep ⟨some m, l, a⟩ s ⟨none, l, a⟩ s
  /-- A request is accepted at the door, of an IDLE master or of a new one (R97, R106). -/
  | accepted {l : List Slot} {a : List Addr} {s : State} {rq : Request} {x : Master} (phase : x.phase = .queued)
      (old : (∃ e, s.masters[rq.master] = some e ∧ e.phase = .idle ∧ x.held = e.held ∧ x.awaited = e.awaited) ∨
        (s.masters[rq.master] = none ∧ x.held = 0 ∧ x.awaited = none)) :
      MasterStep ⟨none, l, a⟩ s ⟨none, l, a⟩
        { s with
          masters := s.masters.set rq.master (some x)
          admission := { s.admission with queue := s.admission.queue ++ [rq] } }

/-! ### Moves of the station table (R167 to R175) -/

/-- A place whose entry keeps address and pins, or is removed unpinned. -/
structure StationKept (o o' : Option Station) : Prop where
  kept : ∀ y, o' = some y → ∃ x, o = some x ∧ y.addr = x.addr ∧ y.pins = x.pins
  pinned : ∀ x, o = some x → 0 < x.pins → o' ≠ none

/-- A move of the station table. -/
inductive StationStep : Ghost → State → Ghost → State → Prop
  /-- Entries move, are marked seen or unseen, or leave unpinned (R168, R174, R175). -/
  | kept {g : Ghost} {s : State} {x : Vector (Option Station) 256} (h : ∀ j : Place, StationKept s.stations[j] x[j]) :
      StationStep g s g { s with stations := x }
  /-- An unknown address is learned (R168). -/
  | learned {h : Option MasterIndex} {l : List Slot} {s : State} {j : Place} {x : Station} (free : s.stations[j] = none)
      (unknown : s.placeOf x.addr = none) (unpinned : x.pins = 0) :
      StationStep ⟨h, l, []⟩ s ⟨h, l, []⟩ (s.putStation j (some x))
  /-- The pin count of an address is raised (R170). -/
  | pinned {h : Option MasterIndex} {l : List Slot} {a : List Addr} {s : State} {j : Place} {x : Station}
      (hx : s.stations[j] = some x) :
      StationStep ⟨h, l, a⟩ s ⟨h, l, x.addr :: a⟩ (s.putStation j (some { x with pins := x.pins + 1 }))
  /-- An owner's entry is made in a free or unpinned place (R170). -/
  | made {h : Option MasterIndex} {l : List Slot} {a : List Addr} {s : State} {j : Place} {x : Station}
      (place : ∀ y, s.stations[j] = some y → y.pins = 0) (unknown : s.placeOf x.addr = none) (once : x.pins = 1) :
      StationStep ⟨h, l, a⟩ s ⟨h, l, x.addr :: a⟩ (s.putStation j (some x))
  /-- There is no place for an owner's entry, which a count of the records shuts out. -/
  | full {h : Option MasterIndex} {l : List Slot} {d : Addr} {s : State} {i : Slot} {a : Addr}
      (pins : ∀ j : Place, ∃ y, s.stations[j] = some y ∧ y.pins ≠ 0) (free : s.recordAt i = none) :
      StationStep ⟨h, l, [d]⟩ s ⟨h, l, [a, d]⟩ s

/-! ### All the moves -/

/-- The state `t` comes of `s` by moves; the ghosts say what is half done at each end. -/
inductive Moves (query : Bool) : Ghost → State → Ghost → State → Prop
  | refl (g : Ghost) (s : State) : Moves query g s g s
  | trans {g h k : Ghost} {s t u : State} : Moves query g s h t → Moves query h t k u → Moves query g s k u
  | calm {g : Ghost} {s t : State} {ms : List MasterIndex} : Calm query ms s t → Moves query g s g t
  | master {g h : Ghost} {s t : State} : MasterStep g s h t → Moves query g s h t
  | station {g h : Ghost} {s t : State} : StationStep g s h t → Moves query g s h t
  /-- A standing record enters ENDING (R34). -/
  | ended {g : Ghost} {s : State} {i : Slot} {r : Record} (hr : s.recordAt i = some r)
      (standing : r.state.standing = true)
      (why : EndReason) : Moves query g s g (s.withEnded i why r)
  /-- An ENDING record goes FREE (R39). -/
  | freed {g : Ghost} {s : State} {i : Slot} {r : Record} (hr : s.recordAt i = some r) (ending : r.state = .ending) :
      Moves query g s g (freeRecord i s)
  /-- A PENDING record goes FREE, its legs withdrawn (R24, R59). -/
  | withdrawn {h : Option MasterIndex} {a : List Addr} {s : State} {i : Slot} {r : Record} (hr : s.recordAt i = some r)
      (pending : r.state = .pending) : Moves query ⟨h, [], a⟩ s ⟨h, [], a⟩ (freeRecord i (withdraw i s))
  /-- A port policy is written whose cap bears the peak load (R180). -/
  | policy {g : Ghost} {s : State} {p : Port} {new : Policy}
      (bears : s.peakLoad p ≤ capOf s.cycleTicks new.share) : Moves query g s g (writePolicy p new s)
  /-- A new H is pending, with every record FREE and nothing staged (R69). -/
  | timing {g : Ghost} {s : State} (h : Nat) (free : ∀ i : Slot, s.recordAt i = none)
      (empty : s.store.changeList = []) :
      Moves query g s g { s with store := { s.store with pendingH := some h } }
  /-- The calendars are switched (R61). -/
  | switched {h : Option MasterIndex} {a : List Addr} {s : State} :
      Moves query ⟨h, [], a⟩ s ⟨h, s.installingSlots, a⟩ (calendarSwitch s)
  /-- A PENDING record stands, once its windows are installed (R23). -/
  | installed {h : Option MasterIndex} {l : List Slot} {a : List Addr} {s : State} {i : Slot} {r : Record}
      {st : RecordState}
      (hr : s.recordAt i = some r) (pending : r.state = .pending) (standing : st.standing = true)
      (empty : s.store.changeList = []) (n : Option (BitVec 32)) :
      Moves query ⟨h, l, a⟩ s ⟨h, l.filter fun j => j ≠ i, a⟩
        (s.withRecord i (some { r with state := st, firstHypercycle := n }))
  /-- A slot with no PENDING record is passed. -/
  | passed {h : Option MasterIndex} {l : List Slot} {a : List Addr} {s : State} {i : Slot}
      (other : ∀ r, s.recordAt i = some r → r.state ≠ .pending) :
      Moves query ⟨h, l, a⟩ s ⟨h, l.filter fun j => j ≠ i, a⟩ s

namespace Moves

variable {query : Bool} {g : Ghost} {s : State}

theorem of_eq {t : State} (h : t = s) : Moves query g s g t := by
  subst h
  exact refl ..

theorem foldl {α : Type} {f : State → α → State} (h : ∀ s a, Moves query g s g (f s a)) (l : List α) (s : State) :
    Moves query g s g (l.foldl f s) := by
  induction l generalizing s with
  | nil => exact refl g s
  | cons a l ih => exact (h s a).trans (ih _)

theorem overPorts {f : Port → State → State} (h : ∀ p s, Moves query g s g (f p s)) (s : State) :
    Moves query g s g (Machine.overPorts f s) := foldl (fun s p => h p s) _ s

theorem overSlots {f : Slot → State → State} (h : ∀ i s, Moves query g s g (f i s)) (s : State) :
    Moves query g s g (Machine.overSlots f s) := foldl (fun s i => h i s) _ s

/-! ### Calm operations -/

theorem aside {t : State} (h : Calm query [] s t) : Moves query g s g t := calm h

theorem modPort {p : Port} {f : PortState → PortState} (h : CalmPort s.ports[p] (f s.ports[p])) :
    Moves query g s g (s.modPort p f) := calm (.modPort h)

theorem modSlot {i : Slot} {f : SlotCell → SlotCell} (h : CalmSlot query s.slots[i] (f s.slots[i])) :
    Moves query g s g (s.modSlot i f) := calm (.modSlot h)

theorem modRecord {i : Slot} {f : Record → Record} (h : ∀ r, s.recordAt i = some r → Kept query r (f r)) :
    Moves query g s g (s.modRecord i f) := calm (.modRecord h)

/-- One more non-reply frame, where there is a place for it (R116). -/
theorem enqueue {p : Port} {f : ControlFrame} (other : f.nonReply = true) (free : s.nonReplyFree p = true) :
    Moves query g s g (s.enqueue p f) := by
  have place := (State.nonReplyFree_iff.1 free).2
  have noReply : f.replyMaster = none := by
    cases h : f.replyMaster with
    | none => rfl
    | some m =>
      rw [ControlFrame.replyMaster_eq_some] at h
      rw [ControlFrame.nonReply, h] at other
      cases other
  have frames : ({ s.ports[p] with controlQueue := (s.ports[p]).controlQueue ++ [f] } : PortState).controlFrames =
      (s.ports[p]).controlFrames ++ [f] := by
    unfold PortState.controlFrames
    exact (List.append_assoc ..).symm
  refine modPort { replies := ?_, nonReplies := .inr ?_ }
  · rw [PortState.replyMasters_eq, frames, PortState.replyMasters_eq, List.filterMap_append]
    simp only [List.filterMap_cons, noReply, List.filterMap_nil, List.append_nil]
    exact List.Subperm.refl _
  · rw [PortState.nonReplies_eq, frames]
    rw [PortState.nonReplies_eq] at place
    simp [List.filter_append, other]
    omega

theorem sendNonReply (p : Port) (dest : Addr) (m : Message) (s : State) :
    Moves query g s g (Machine.sendNonReply p dest m s) := by
  unfold Machine.sendNonReply
  split
  · next free => exact enqueue rfl free
  · exact refl g s

theorem handNotice (k : NoticeKind) (i : Slot) (s : State) : Moves query g s g (Machine.handNotice k i s) := by
  unfold Machine.handNotice
  split
  · exact refl g s
  · split
    · next free => exact enqueue rfl free
    · exact modRecord fun r _ => { flags := fun _ => { noticeLost := fun _ => rfl } }

theorem handEnded (n : Nat) (r : Record) (s : State) : Moves query g s g (Machine.handEnded n r s) := by
  unfold Machine.handEnded
  split
  · next free => exact enqueue rfl free
  · exact refl g s

/-! ### The schedulers (chapter 07) -/

theorem testHeads (p : Port) (s : State) : Moves query g s g (Machine.testHeads p s) := by
  cases up : s.portSpeed p with
  | none => exact of_eq (testHeads_of_down up)
  | some sp =>
    rw [testHeads_eq up]
    refine calm (.discard ?_ rfl rfl (List.dropWhile_sublist _))
    rw [PortState.controlFrames_eq, PortState.controlFrames_eq]
    show ((s.ports[p]).tx.controlFrames ++ (if _ then [] else (s.ports[p]).controlQueue) ++
      (s.ports[p]).unfit sp).Perm _
    unfold PortState.unfit
    split
    · exact .of_eq (by simp)
    · exact .of_eq (by simp)

theorem chosen {p : Port} {t : State} (h : Chosen p s t) : Moves query g s g t := by
  cases h with
  | nothing => exact refl g s
  | @motion sp w e rest up free current live queue inside =>
    have shorter : rest.length ≤ ((s.slots[w.slot]).queue w.leg).length := by rw [queue]; exact Nat.le_succ _
    have slot : CalmSlot query s.slots[w.slot] ((s.slots[w.slot]).withQueue w.leg rest) := by
      cases hl : w.leg with
      | leg0 => rw [hl] at shorter; exact { record := rel_refl .., queue0 := .inl shorter }
      | leg1 => rw [hl] at shorter; exact { record := rel_refl .., queue1 := .inl shorter }
    refine (calm (.withSlot slot)).trans (calm (.withPort (.of_tx ?_ rfl (.refl _) rfl rfl)))
    exact List.nil_sublist _
  | control up free openTime queue fits =>
    refine calm (.withPort (.of_frames (List.Perm.of_eq ?_).subperm rfl rfl (.inl (.refl _))))
    rw [PortState.controlFrames_eq, PortState.controlFrames_eq, free, queue]
    rfl
  | openHead up free openTime queue fits =>
    refine calm (.withPort (.of_tx (List.nil_sublist _) rfl ?_ rfl rfl))
    rw [queue]
    exact List.sublist_cons_self ..

theorem settleEgress (s : State) : Moves query g s g (Machine.settleEgress s) :=
  overPorts (fun p s => ((testHeads p s).trans (chosen (chooseFrame_chosen ..))).trans (testHeads ..)) s

theorem endTransmission (p : Port) (s : State) : Moves query g s g (Machine.endTransmission p s) := by
  have free : CalmPort s.ports[p] { s.ports[p] with tx := .free } :=
    .of_tx (List.nil_sublist _) rfl (.refl _) rfl rfl
  unfold Machine.endTransmission
  split
  · next f _ _ htx =>
    split
    · next m hm =>
      have removed : replyGone m (s.modPort p fun ps => { ps with tx := .free }) =
          (discardAll [f] s).withPort p { s.ports[p] with tx := .free } := by
        rw [State.withPort, discardAll_ports]
        refine Eq.trans ?_ (discardControl_withPorts f s _)
        rw [discardControl, hm]
        rfl
      rw [removed]
      refine calm (.discard ?_ rfl rfl (.refl _))
      rw [PortState.controlFrames_eq, PortState.controlFrames_eq, htx]
      exact List.perm_append_comm
    · exact modPort free
    · exact modPort free
  · exact modPort free

theorem egressLoss (p : Port) (s : State) : Moves query g s g (Machine.egressLoss p s) := by
  rw [egressLoss_eq]
  exact calm (.discard (.of_eq (List.nil_append _)) rfl rfl (List.nil_sublist _))

theorem startBeacon (p : Port) (s : State) : Moves query g s g (Machine.startBeacon p s) := by
  unfold Machine.startBeacon
  split
  · exact modPort (.of_tx (List.nil_sublist _) rfl (.refl _) rfl rfl)
  · exact refl g s

theorem handOpen (p : Port) (f : Frame) (s : State) : Moves query g s g (Machine.handOpen p f s) := by
  refine modPort ?_
  unfold PortState.takeOpen
  split
  · next h =>
    obtain ⟨_, count, bytes⟩ := h
    refine .of_frames (List.Subperm.refl _) rfl rfl (.inr ⟨?_, ?_⟩)
    · rw [List.length_append]; exact count
    · simpa [bytesIn] using bytes
  · exact .of_same rfl rfl rfl rfl rfl

end Moves

end Sys2Proof.Machine

/-! SUPPORT. The reservation table's operations as moves (chapter 02): reports, waking, links, ends and frees. -/

namespace Sys2Proof.Machine

theorem le_satSucc (x : BitVec 16) : x ≤ satSucc x := by
  unfold satSucc
  split
  · exact BitVec.le_refl _
  · bv_omega

theorem le_satAdd (x : BitVec 16) (n : Nat) : x ≤ satAdd x n := by
  have := x.isLt
  unfold satAdd
  split
  · bv_omega
  · rw [BitVec.le_def, BitVec.toNat_add, BitVec.toNat_ofNat]
    omega

/-! ### Records and slots with their counts changed -/

/-- A record with one leg changed in what was not claimed of it. -/
theorem LegKept.kept_mapLeg {query : Bool} {r : Record} {n : LegNo} {f : Leg → Leg} (h : ∀ l, LegKept l (f l)) :
    Kept query r (r.mapLeg n f) := by
  cases n with
  | leg0 => exact { leg0 := h _ }
  | leg1 =>
    refine { noLeg1 := fun single => ?_, leg1 := fun l hl => ⟨f l, ?_, h l⟩ }
    · show r.leg1.map f = none; rw [single]; rfl
    · show r.leg1.map f = some (f l); rw [hl]; rfl

theorem LegKept.aged_mapLegs {query : Bool} {r : Record} {f : Leg → Leg} (h : ∀ l, LegKept l (f l)) :
    Aged query r (r.mapLegs f) where
  leg0 := h _
  noLeg1 := fun single => by show r.leg1.map f = none; rw [single]; rfl
  leg1 := fun l hl => ⟨f l, by show r.leg1.map f = some (f l); rw [hl]; rfl, h l⟩

theorem CalmSlot.setQueue {query : Bool} {c : SlotCell} {n : LegNo} {q : List HoldEntry}
    (length : q.length ≤ (c.queue n).length ∨ q.length ≤ 4) {x : Option Record}
    (record : Option.Rel (Kept query) c.record x) : CalmSlot query c { c.setQueue n q with record := x } := by
  cases n with
  | leg0 => exact { record := record, queue0 := length }
  | leg1 => exact { record := record, queue1 := length }

theorem CalmSlot.setQueue_alone {query : Bool} {c : SlotCell} {n : LegNo} {q : List HoldEntry}
    (length : q.length ≤ (c.queue n).length ∨ q.length ≤ 4) : CalmSlot query c (c.setQueue n q) := by
  cases n with
  | leg0 => exact { record := rel_refl .., queue0 := length }
  | leg1 => exact { record := rel_refl .., queue1 := length }

namespace Moves

variable {query : Bool} {g : Ghost} {s : State} {i : Slot} {r : Record}

/-! ### Entry into ENDING, and answers that are awaited -/

theorem endRecord (hr : s.recordAt i = some r) (standing : r.state.standing = true) (why : EndReason) :
    Moves query g s g (Machine.endRecord i why s) := by
  rw [endRecord_eq hr]
  exact ended hr standing why

theorem answerAwaited {m : MasterIndex} {e : Master} (he : s.masters[m] = some e) (awaits : e.awaited ≠ none)
    (st : Status) (body : AnswerBody) : Moves query g s g (answerMaster m st body s) := by
  rcases answerMaster_cases m st body s with h | ⟨e', rq, he', _, h⟩
  · exact of_eq h
  · rw [h]
    cases he.symm.trans he'
    exact master (.told he awaits ..)

theorem answerGranted (i : Slot) (r : Record) (st : RecordState) (s : State) :
    Moves query g s g (Machine.answerGranted i r st s) := by
  unfold Machine.answerGranted
  split
  · next e he =>
    split
    · next awaits => exact answerAwaited he (by rw [awaits]; nofun) ..
    · exact refl g s
  · exact refl g s

theorem answerReleased (i : Slot) (n : Nat) (m : MasterIndex) (s : State) :
    Moves query g s g (Machine.answerReleased i n m s) := by
  unfold Machine.answerReleased
  split
  · next e he =>
    split
    · next awaits => exact answerAwaited he (by rw [awaits]; nofun) ..
    · exact refl g s
  · exact refl g s

theorem answerCancelled (i : Slot) (n : Nat) (m : MasterIndex) (cause : EndReason) (s : State) :
    Moves query g s g (Machine.answerCancelled i n m cause s) := by
  unfold Machine.answerCancelled
  split
  · next e he =>
    split
    · next awaits => exact answerAwaited he (by rw [awaits]; nofun) ..
    · exact refl g s
  · exact refl g s

theorem answerDeferred (m : MasterIndex) (s : State) : Moves query g s g (Machine.answerDeferred m s) := by
  unfold Machine.answerDeferred
  split
  · exact refl g s
  · next e he =>
    split
    · next awaits => exact answerAwaited he (by rw [awaits]; nofun) ..
    · next awaits => exact answerAwaited he (by rw [awaits]; nofun) ..
    · next awaits => exact answerAwaited he (by rw [awaits]; nofun) ..
    all_goals exact refl g s

/-! ### Reports of window ends (R25 to R31, R135) -/

theorem applyLatePolicy (p : Port) (i : Slot) (n : LegNo) (s : State) :
    Moves query g s g (Machine.applyLatePolicy p i n s) := by
  unfold Machine.applyLatePolicy
  split
  · exact modSlot (.setQueue_alone (.inl (List.length_map _).le))
  · exact modSlot (.setQueue (.inl (List.length_filter_le ..)) (rel_map fun r _ => { droppedFrames := le_satAdd .. }))

theorem countDelivered (hr : s.recordAt i = some r) (active : r.state = .active) (n : LegNo) :
    Moves query g s g (Machine.countDelivered i n s) := by
  cases n with
  | leg1 => exact modRecord fun r _ => LegKept.kept_mapLeg fun l => {}
  | leg0 =>
    have counted : Moves query g s g (s.withRecord i (some r.afterDelivery)) := by
      rw [← State.modRecord_eq_withRecord hr Record.afterDelivery]
      refine modRecord fun r _ =>
        { leg0 := {}, unlimited := fun unlimited => ?_, remaining := fun k hk => ⟨k - 1, k.sub_le 1, ?_⟩ }
      · show r.remaining.map _ = none; rw [unlimited]; rfl
      · show r.remaining.map _ = some (k - 1); rw [hk]; rfl
    rw [countDelivered_leg0 hr]
    split
    · refine counted.trans (endRecord (State.withRecord_recordAt ..) ?_ _)
      show r.state.standing = true
      rw [active]
      rfl
    · exact counted

theorem countMissed (i : Slot) (n : LegNo) (s : State) : Moves query g s g (Machine.countMissed i n s) := by
  refine modRecord fun r _ => ?_
  have counted : Kept query r (r.mapLeg n fun l => { l with misses := missSucc l.misses }) :=
    LegKept.kept_mapLeg fun l => {}
  cases n with
  | leg0 => exact { counted with missedWindows := le_satSucc _, flags := fun _ => { missed := fun _ => rfl } }
  | leg1 => exact { counted with missedWindows := le_satSucc _, flags := fun _ => { missed := fun _ => rfl } }

theorem testDormancy (i : Slot) (s : State) : Moves query g s g (Machine.testDormancy i s) := by
  unfold Machine.testDormancy
  split
  · next r hr =>
    split
    · next limit =>
      refine (modSlot { record := rel_map fun x hx => ?_ }).trans (handNotice ..)
      obtain rfl : x = r := Option.some.inj (hx.symm.trans hr)
      have standing : x.state.standing = true := by rw [limit.1]; rfl
      exact
        { flags := fun _ => { dormantSeen := fun _ => rfl }, state := .inr ⟨standing, rfl⟩
          ending := fun h => absurd h (RecordState.not_ending_of_standing standing) }
    · exact refl g s
  · exact refl g s

theorem windowReport (i : Slot) (n : LegNo) (openedLive delivered : Bool) (s : State) :
    Moves query g s g (Machine.windowReport i n openedLive delivered s) := by
  unfold Machine.windowReport
  split
  · exact refl g s
  · next r hr =>
    split
    · next counts =>
      refine trans ?_ (testDormancy ..)
      split
      · exact countDelivered hr counts.2 n
      · exact countMissed ..
    · exact refl g s

theorem endInstance (p : Port) (s : State) : Moves query g s g (Machine.endInstance p s) := by
  have closed : Moves query g s g (s.modPort p fun ps => { ps with current := .none }) :=
    modPort (.of_same rfl rfl rfl rfl rfl)
  unfold Machine.endInstance
  split
  · exact refl g s
  · exact closed
  · split
    · exact closed.trans (windowReport ..)
    · exact (closed.trans (applyLatePolicy ..)).trans (windowReport ..)

/-! ### Waking (R30) -/

theorem wakeRecord (hr : s.recordAt i = some r) (dormant : r.state = .dormant) :
    Moves query g s g (Machine.wakeRecord i s) := by
  refine (modRecord fun x hx => ?_).trans (handNotice ..)
  obtain rfl : x = r := Option.some.inj (hx.symm.trans hr)
  exact .restated (LegKept.aged_mapLegs (f := fun l => { l with misses := 0 }) fun l => {}) (by rw [dormant]; rfl) rfl _
    (BitVec.le_refl _)

theorem beginInstance (p : Port) (w : Window) (i : Slot) (n : LegNo) (cls : WindowClass) (s : State) :
    Moves query g s g (Machine.beginInstance p w i n cls s) := modPort (.of_same rfl rfl rfl rfl rfl)

theorem openReservation (p : Port) (w : Window) (i : Slot) (n : LegNo) (s : State) :
    Moves query g s g (Machine.openReservation p w i n s) := by
  unfold Machine.openReservation
  split
  · exact beginInstance ..
  · next r hr =>
    split
    · exact beginInstance ..
    · split
      · exact beginInstance ..
      · split
        · next wakes => exact (wakeRecord hr wakes.1).trans (beginInstance ..)
        · exact beginInstance ..

theorem clearForOpening (p : Port) (s : State) : Moves query g s g (Machine.clearForOpening p s) := by
  have sent : Moves query g s g (if transmissionEnded p s then Machine.endTransmission p s else s) := by
    split
    · exact endTransmission p s
    · exact refl g s
  unfold Machine.clearForOpening
  dsimp only
  revert sent
  generalize (if transmissionEnded p s then Machine.endTransmission p s else s) = u
  intro sent
  split
  · exact sent.trans (endInstance ..)
  · exact sent

theorem openWindow (p : Port) (w : Window) (s : State) : Moves query g s g (Machine.openWindow p w s) := by
  refine (clearForOpening p s).trans ?_
  unfold Machine.openWindow
  dsimp only
  split
  · exact (modPort (.of_same rfl rfl rfl rfl rfl)).trans (startBeacon ..)
  · exact openReservation ..

/-! ### Departures and arrivals (R32, R33) -/

theorem suspendRecord (hr : s.recordAt i = some r) (standing : r.state.standing = true) :
    Moves query g s g (Machine.suspendRecord i s) := by
  rw [suspendRecord_eq hr]
  refine trans ?_ (handNotice ..)
  have slot : CalmSlot query s.slots[i]
      { s.slots[i] with record := some (r.suspendedFrom s.slots[i]), queue0 := [], queue1 := [] } := by
    refine { record := ?_, queue0 := .inl (Nat.zero_le _), queue1 := .inl (Nat.zero_le _) }
    rw [show (s.slots[i]).record = some r from hr]
    exact .some (.restated (LegKept.aged_mapLegs (f := fun l => { l with misses := 0 }) fun l => {}) standing rfl _
      (le_satAdd ..))
  exact (calm (.withSlot slot)).trans (calm (.mapPorts fun p => .of_same rfl rfl rfl rfl rfl))

theorem departAt (p : Port) (i : Slot) (s : State) : Moves query g s g (Machine.departAt p i s) := by
  unfold Machine.departAt
  split
  · next r hr =>
    split
    · next leaves => exact suspendRecord hr (by rcases leaves.2 with h | h <;> rw [h] <;> rfl)
    · exact refl g s
  · exact refl g s

theorem portDepartsFromRecords (p : Port) (s : State) : Moves query g s g (Machine.portDepartsFromRecords p s) := by
  rw [portDepartsFromRecords_eq]
  exact foldl (fun s i => departAt p i s) _ s

theorem resumeRecord (hr : s.recordAt i = some r) (suspended : r.state = .suspended) :
    Moves query g s g (Machine.resumeRecord i s) := by
  refine (modRecord fun x hx => ?_).trans (handNotice ..)
  obtain rfl : x = r := Option.some.inj (hx.symm.trans hr)
  exact { state := .inr ⟨by rw [suspended]; rfl, rfl⟩, ending := fun h => by rw [suspended] at h; cases h }

theorem arriveAt (p : Port) (i : Slot) (s : State) : Moves query g s g (Machine.arriveAt p i s) := by
  unfold Machine.arriveAt
  split
  · next r hr =>
    split
    · next arrives =>
      split
      · exact endRecord hr (by rw [arrives.2]; rfl) _
      · split
        · exact resumeRecord hr arrives.2
        · exact refl g s
    · exact refl g s
  · exact refl g s

theorem portArrivesAtRecords (p : Port) (s : State) : Moves query g s g (Machine.portArrivesAtRecords p s) := by
  rw [portArrivesAtRecords_eq]
  exact foldl (fun s i => arriveAt p i s) _ s

/-! ### Cancellations and clears (R24, R37, R38) -/

section NothingHalfInstalled

variable {h : Option MasterIndex} {a : List Addr}

theorem cancelRecord (hr : s.recordAt i = some r) (pending : r.state = .pending) (cause : EndReason) :
    Moves query ⟨h, [], a⟩ s ⟨h, [], a⟩ (Machine.cancelRecord i cause s) := by
  rw [cancelRecord_eq hr]
  exact (withdrawn hr pending).trans (answerCancelled ..)

theorem endAt (f : Record → Bool) (why : EndReason) (i : Slot) (s : State) :
    Moves query ⟨h, [], a⟩ s ⟨h, [], a⟩ (Machine.endAt f why i s) := by
  rcases endAt_cases f why i s with e | ⟨r, hr, _, standing, e⟩ | ⟨r, hr, _, pending, e⟩
  · exact of_eq e
  · rw [e]
    exact ended hr (RecordState.standing_iff.2 standing) why
  · rw [e]
    exact cancelRecord hr pending why

theorem endAll (f : Record → Bool) (why : EndReason) (s : State) :
    Moves query ⟨h, [], a⟩ s ⟨h, [], a⟩ (Machine.endAll f why s) := by
  rw [endAll_eq]
  exact foldl (fun s i => endAt f why i s) _ s

theorem stationMoved (x : Addr) (s : State) : Moves query ⟨h, [], a⟩ s ⟨h, [], a⟩ (Machine.stationMoved x s) :=
  endAll ..

end NothingHalfInstalled

/-! ### The switch (R61, R62, R109) -/

section Switch

variable {h : Option MasterIndex} {l : List Slot} {a : List Addr}

theorem installRecord (empty : s.store.changeList = []) (i : Slot) :
    Moves query ⟨h, l, a⟩ s ⟨h, l.filter fun j => j ≠ i, a⟩ (Machine.installRecord i s) := by
  by_cases pending : ∃ r, s.recordAt i = some r ∧ r.state = .pending
  · obtain ⟨r, hr, pending⟩ := pending
    have standing : (s.installState r).standing = true := by unfold State.installState; split <;> rfl
    have entered : Moves query ⟨h, l, a⟩ s ⟨h, l.filter fun j => j ≠ i, a⟩ (s.withInstalled i r) :=
      installed hr pending standing empty _
    rw [installRecord_eq hr pending]
    refine trans ?_ (answerGranted ..)
    split
    · exact entered.trans (endRecord State.withInstalled_recordAt standing _)
    · exact entered
  · have other : ∀ r, s.recordAt i = some r → r.state ≠ .pending := fun r hr state => pending ⟨r, hr, state⟩
    rw [installRecord_of_other other]
    exact passed other

/-- After the walk every slot to install is installed. -/
theorem installRecords (l : List Slot) {k : List Slot} (sub : k ⊆ l) (empty : s.store.changeList = []) :
    Moves query ⟨h, k, a⟩ s ⟨h, [], a⟩ (l.foldl (fun t i => Machine.installRecord i t) s) := by
  induction l generalizing s k with
  | nil =>
    rw [List.eq_nil_of_subset_nil sub]
    exact refl ..
  | cons i l ih =>
    refine (installRecord empty i).trans (ih ?_ (by rw [installRecord_store]; exact empty))
    intro j hj
    obtain ⟨hj, other⟩ := List.mem_filter.1 hj
    exact (List.mem_cons.1 (sub hj)).resolve_left (by simpa using other)

theorem freeEnding (hr : s.recordAt i = some r) (ending : r.state = .ending) :
    Moves query g s g (Machine.freeEnding i s) := by
  simp only [Machine.freeEnding, hr]
  have released : Moves query g s g
      (r.waiters.foldl (fun t m => Machine.answerReleased i (s.streamOf i) m t) (freeRecord i s)) :=
    (freed hr ending).trans (foldl (fun t m => answerReleased i (s.streamOf i) m t) _ _)
  split
  · exact released
  · exact released.trans (handEnded ..)

theorem freeEndings {l : List Slot} (nodup : l.Nodup)
    (ending : ∀ i ∈ l, ∃ r, s.recordAt i = some r ∧ r.state = .ending) :
    Moves query g s g (l.foldl (fun t i => Machine.freeEnding i t) s) := by
  induction l generalizing s with
  | nil => exact refl g s
  | cons i l ih =>
    obtain ⟨new, nodup⟩ := List.nodup_cons.1 nodup
    obtain ⟨r, hr, state⟩ := ending i List.mem_cons_self
    refine (freeEnding hr state).trans (ih nodup fun j hj => ?_)
    have other : j ≠ i := fun same => new (same ▸ hj)
    rw [State.recordAt, freeEnding_other_slot other]
    exact ending j (List.mem_cons_of_mem _ hj)

theorem forgetSwitchAnswers (u : State) : Moves query g u g { u with switchAnswers := [] } := calm .aside

theorem takeSwitch (s : State) : Moves query .clear s .clear (Machine.takeSwitch s) := by
  have empty : s.switched.store.changeList = [] := by
    rw [State.switched, overPorts_store _ (fun p t => (Sending.testHeads p t).store), calendarSwitch_frame]
  have still : ∀ i ∈ s.endingSlots, ∃ r, s.switchInstalled.recordAt i = some r ∧ r.state = .ending := by
    intro i hi
    obtain ⟨r, hr, state⟩ := State.mem_endingSlots.1 hi
    obtain ⟨r', hr', state'⟩ : ∃ r', s.switched.recordAt i = some r' ∧ r'.state = .ending := by
      rcases State.switched_recordAt hr with h | h
      · exact ⟨r, h, state⟩
      · exact ⟨markLost r, h, state⟩
    refine ⟨r', ?_, state'⟩
    rw [State.recordAt, State.switchInstalled, foldl_installRecord_of_other]
    · exact hr'
    · intro x hx
      cases hx.symm.trans hr'
      rw [state']
      nofun
  have switchedMoves : Moves query .clear s ⟨none, s.installingSlots, []⟩ s.switched :=
    trans (switched (h := none) (a := [])) (overPorts (fun p t => testHeads p t) (calendarSwitch s))
  have installedMoves : Moves query ⟨none, s.installingSlots, []⟩ s.switched .clear s.switchInstalled :=
    installRecords s.installingSlots (List.Subset.refl _) empty
  have freedMoves : Moves query .clear s.switchInstalled .clear s.switchFreed :=
    freeEndings s.endingSlots_nodup still
  have answeredMoves := foldl (query := query) (g := .clear) (fun t m => answerDeferred m t)
    s.switchFreed.switchAnswers s.switchFreed
  rw [takeSwitch_eq]
  exact (((switchedMoves.trans installedMoves).trans freedMoves).trans answeredMoves).trans (forgetSwitchAnswers _)

end Switch

end Moves

end Sys2Proof.Machine

/-! SUPPORT. Ports, stations, frames and the door as moves (chapters 01, 05, 06, 08 and 09). -/

namespace Sys2Proof.Machine

/-! ### Entries of the station table -/

theorem StationKept.refl (o : Option Station) : StationKept o o :=
  ⟨fun y hy => ⟨y, hy, rfl, rfl⟩, fun x hx _ none => by rw [hx] at none; cases none⟩

theorem StationKept.moved {o : Option Station} {x y : Station} (hx : o = some x) (addr : y.addr = x.addr)
    (pins : y.pins = x.pins) : StationKept o (some y) :=
  ⟨fun z hz => ⟨x, hx, by cases hz; exact addr, by cases hz; exact pins⟩, fun _ _ _ => nofun⟩

theorem StationKept.removed {o : Option Station} (unpinned : ∀ x, o = some x → x.pins = 0) : StationKept o none :=
  ⟨nofun, fun x hx pinned => absurd (unpinned x hx) pinned.ne'⟩

theorem sweepEntry_kept (o : Option Station) : StationKept o (sweepEntry o) := by
  cases o with
  | none => exact .refl _
  | some x =>
    unfold sweepEntry
    dsimp only
    split
    · next h => exact .removed fun y hy => by cases hy; exact h.2
    · exact .moved rfl rfl rfl

theorem departEntry_kept (p : Port) (o : Option Station) : StationKept o (departEntry p o) := by
  cases o with
  | none => exact .refl _
  | some x =>
    unfold departEntry
    dsimp only
    split
    · next h => exact .removed fun y hy => by cases hy; exact h.2
    · exact .refl _

theorem markOldest_length (m : Mark) (q : List HoldEntry) : (markOldest m q).length = q.length := by
  induction q with
  | nil => rfl
  | cons e es ih =>
    unfold markOldest
    split
    · rfl
    · simp [ih]

theorem lowerLead_le (old : Option Nat) (lead : Nat) :
    ∀ x, old = some x → ∃ x' ≤ x, lowerLead old lead = some x' := by
  rintro x rfl
  exact ⟨min x lead, Nat.min_le_left .., rfl⟩

namespace Moves

variable {query : Bool} {g : Ghost} {s : State}

/-! ### The station table -/

theorem putStation {j : Place} {x y : Station} (hx : s.stations[j] = some x) (addr : y.addr = x.addr)
    (pins : y.pins = x.pins) : Moves query g s g (s.putStation j (some y)) := by
  refine station (.kept fun k => ?_)
  rw [show (s.stations.set j (some y))[k] = if k = j then some y else s.stations[k] from s.putStation_get j k (some y)]
  split
  · next h => subst h; exact .moved hx addr pins
  · exact .refl _

theorem sweepTable (s : State) : Moves query g s g (Machine.sweepTable s) := by
  rw [sweepTable_frame]
  refine (station (.kept (x := (Machine.sweepTable s).stations) fun j => ?_)).trans (calm .aside)
  rw [sweepTable_station]
  exact sweepEntry_kept _

theorem learn {h : Option MasterIndex} (p : Port) (a : Addr) (s : State) :
    Moves query ⟨h, [], []⟩ s ⟨h, [], []⟩ (Machine.learn p a s) := by
  unfold Machine.learn
  split
  · exact refl ..
  · split
    · next unknown =>
      split
      · exact refl ..
      · next j free => exact station (.learned (State.lowestPlace_free.1 free).1 unknown rfl)
    · split
      · exact refl ..
      · next x hx =>
        have moved : Moves query ⟨h, [], []⟩ s ⟨h, [], []⟩ (s.putStation _ (some { x with port := p, seen := true })) :=
          putStation hx rfl rfl
        dsimp only
        split
        · exact moved.trans (stationMoved ..)
        · exact moved

/-! ### Links (R158 to R164) -/

theorem portDepartsFromMasters (p : Port) (silent : (s.ports[p]).replyMasters = []) :
    Moves query g s g (Machine.portDepartsFromMasters p s) := by
  have there (m : MasterIndex) : m ∈ ((List.finRange 16).filter fun m => (s.masters[m]).any fun e => e.port == p) ↔
      ∃ e, s.masters[m] = some e ∧ e.port = p := by
    rw [List.mem_filter, Option.any_eq_true]
    simp
  rw [portDepartsFromMasters_eq]
  refine calm (ms := (List.finRange 16).filter fun m => (s.masters[m]).any fun e => e.port == p)
    { slots := fun i => .refl .., ports := fun q => .refl _, masters := fun m => ?_, gone := fun fit m hm q hq => ?_ }
  · show (s.masters.map (masterDeparted p))[m.val] = _
    rw [Vector.getElem_map]
    show masterDeparted p s.masters[m] = _
    unfold masterDeparted
    split
    · next h =>
      obtain ⟨e, he, here⟩ := (there m).1 h
      rw [he]
      exact if_pos here
    · next h =>
      cases he : s.masters[m] with
      | none => rfl
      | some e => exact if_neg fun here => h ((there m).2 ⟨e, he, here⟩)
  · obtain ⟨e, he, here⟩ := (there m).1 hm
    obtain ⟨e', he', atQ, _⟩ := fit.due q m hq
    cases he.symm.trans he'
    have hq : m ∈ (s.ports[p]).replyMasters := by rw [← here, atQ]; exact hq
    rw [silent] at hq
    exact absurd hq List.not_mem_nil

theorem portDepartsFromStations (p : Port) (s : State) :
    Moves query g s g (Machine.portDepartsFromStations p s) := by
  rw [portDepartsFromStations_eq]
  refine station (.kept fun j => ?_)
  show StationKept _ (s.stations.map (departEntry p))[j.val]
  rw [Vector.getElem_map]
  exact departEntry_kept p _

theorem portDeparts (p : Port) (s : State) : Moves query g s g (Machine.portDeparts p s) := by
  have silent : ((Machine.egressLoss p (Machine.portDepartsFromRecords p s)).ports[p]).replyMasters = [] := by
    rw [egressLoss_eq, State.withPort_port_self]
    rfl
  exact ((portDepartsFromRecords p s).trans (egressLoss ..)).trans
    ((portDepartsFromMasters p silent).trans (portDepartsFromStations ..))

theorem linkReport (before : Vector PortState 8) (p : Port) (s : State) :
    Moves query g s g (Machine.linkReport before p s) := by
  unfold Machine.linkReport
  split
  · split
    · exact refl g s
    · exact portDeparts p s
  · split
    · exact portArrivesAtRecords p s
    · exact refl g s

theorem sampleLinks (lines : Vector PhyLines 8) (s : State) : Moves query g s g (Machine.sampleLinks lines s) := by
  have seen : Moves query g s g { s with lines := lines } := calm .aside
  have stepped (t : State) : Moves query g t g (stepLinks lines t) :=
    overPorts (fun p t => modPort (.of_same rfl rfl rfl rfl rfl)) t
  exact (seen.trans (stepped _)).trans (overPorts (linkReport s.ports) _)

/-! ### The time base (chapter 01) -/

theorem startReady (s : State) : Moves query g s g s.startReady := by
  unfold State.startReady
  split
  · exact calm .aside
  · exact refl g s

theorem captureBeacon (s : State) : Moves query g s g (Machine.captureBeacon s) := calm .aside

theorem advanceClock (s : State) : Moves query g s g (Machine.advanceClock s) := by
  unfold Machine.advanceClock
  split <;> exact calm .aside

/-! ### Motion frames (chapter 06) -/

theorem becomeReady (i : Slot) (n : LegNo) (s : State) : Moves query g s g (Machine.becomeReady i n s) := by
  unfold Machine.becomeReady
  split
  · exact refl g s
  · split
    · exact refl g s
    · next l hl =>
      dsimp only
      have marked (m : Mark) : Moves query g s g (s.modSlot i fun c => c.setQueue n (markOldest m (c.queue n))) :=
        modSlot (.setQueue_alone (.inl (markOldest_length ..).le))
      have late (t : State) : Moves query g t g (t.modRecord i countLate) :=
        modRecord fun r _ => { flags := fun _ => { late := fun _ => rfl }, lateFrames := le_satSucc _ }
      have onTime (t : State) : Moves query g t g (t.modRecord i fun r =>
          r.mapLeg n fun l => { l with smallestLead := lowerLead l.smallestLead (s.leadOf r l) }) :=
        modRecord fun r _ => LegKept.kept_mapLeg fun l => { lead := lowerLead_le _ _ }
      have wakes (t : State) : Moves query g t g (t.modRecord i fun r => { r with wake := r.wake.add n }) :=
        modRecord fun r _ => {}
      split
      · split
        · exact ((marked _).trans (late _)).trans (wakes _)
        · exact ((marked _).trans (onTime _)).trans (wakes _)
      · split
        · exact (marked _).trans (late _)
        · exact (marked _).trans (onTime _)

theorem acceptMotion (i : Slot) (n : LegNo) (f : Frame) (s : State) :
    Moves query g s g (Machine.acceptMotion i n f s) := by
  unfold Machine.acceptMotion
  split
  · exact modRecord fun r _ => { flags := fun _ => { oversize := fun _ => rfl }, droppedFrames := le_satSucc _ }
  · split
    · next room => exact modSlot (.setQueue_alone (.inr (by rw [List.length_append]; exact room)))
    · exact modRecord fun r _ => { flags := fun _ => { overflow := fun _ => rfl }, droppedFrames := le_satSucc _ }

theorem takeMotion (p : Port) (f : Frame) (s : State) : Moves query g s g (Machine.takeMotion p f s) := by
  unfold Machine.takeMotion
  split
  · exact acceptMotion ..
  · exact modPort (.of_same rfl rfl rfl rfl rfl)

/-! ### Open frames (R176) -/

theorem flood (arrival : Port) (f : Frame) (s : State) : Moves query g s g (Machine.flood arrival f s) :=
  overPorts (fun q t => by
    split
    · exact handOpen q f t
    · exact refl g t) s

theorem forward (arrival : Port) (f : Frame) (s : State) : Moves query g s g (Machine.forward arrival f s) := by
  unfold Machine.forward
  split
  · exact refl g s
  · split
    · exact flood ..
    · split
      · exact flood ..
      · split
        · exact refl g s
        · split
          · exact refl g s
          · exact handOpen ..

/-! ### The door (R100 to R106) -/

theorem acceptIdle {m : MasterIndex} {e : Master} (he : s.masters[m] = some e) (idle : e.phase = .idle) (p : Port)
    (f : Frame) (k : RequestKind) (b : QueuedBody) : Moves query .clear s .clear (acceptRequest m p f k b s) := by
  rw [acceptRequest_eq he]
  exact master (.accepted (rq := { master := m, port := p, addr := sourceOf f, body := b }) rfl
    (.inl ⟨e, he, idle, rfl, rfl⟩))

theorem takeQueued (p : Port) (f : Frame) (k : RequestKind) (b : QueuedBody) (s : State) :
    Moves query .clear s .clear (Machine.takeQueued p f k b s) := by
  unfold Machine.takeQueued
  split
  · split
    · exact refl ..
    · next e he =>
      split
      · next idle => exact acceptIdle he idle ..
      · exact sendNonReply ..
  · split
    · exact sendNonReply ..
    · next m free =>
      rw [acceptRequest_new]
      exact master (.accepted (rq := { master := m, port := p, addr := sourceOf f, body := b }) rfl
        (.inr ⟨(State.freeMaster_eq.1 free).1, rfl, rfl⟩))

theorem takeControl (p : Port) (f : Frame) (s : State) : Moves query .clear s .clear (Machine.takeControl p f s) := by
  unfold Machine.takeControl
  split
  · exact refl ..
  · unfold takeRequest
    split
    · exact sendNonReply ..
    · split
      · exact sendNonReply ..
      · split
        · exact sendNonReply ..
        · split
          · exact sendNonReply ..
          · split
            · exact calm .aside
            · exact takeQueued ..

theorem takeFrame (p : Port) (f : Frame) (s : State) : Moves query .clear s .clear (Machine.takeFrame p f s) := by
  unfold Machine.takeFrame
  split
  · exact modPort (.of_same rfl rfl rfl rfl rfl)
  · exact (learn (h := none) ..).trans (takeControl ..)
  · exact takeMotion ..
  · exact (learn (h := none) ..).trans (forward ..)

/-! ### Immediate answers (R104, R105) -/

theorem answerQuery (rq : ImmediateRequest) (n : Nat) (clear : EventFlags) (part : Nat) (s : State) :
    Moves true g s g (Machine.answerQuery rq n clear part s) := by
  have counted (t : State) (k : Nat) : Moves true g t g { t with freeIndex := k } := calm .aside
  unfold Machine.answerQuery
  split
  · exact refl g s
  · split
    · exact sendNonReply ..
    · split
      · exact refl g s
      · split
        · exact sendNonReply ..
        · dsimp only
          refine trans (trans ?_ (counted ..)) (sendNonReply ..)
          split
          · exact modRecord fun r _ => { flags := nofun }
          · exact refl g s

theorem answerReadCalendar (rq : ImmediateRequest) (port first : Nat) (s : State) :
    Moves query g s g (Machine.answerReadCalendar rq port first s) := by
  unfold Machine.answerReadCalendar
  split
  · exact refl g s
  · split <;> exact sendNonReply ..

theorem answerReadPort (rq : ImmediateRequest) (port : Nat) (clear : Bool) (s : State) :
    Moves query g s g (Machine.answerReadPort rq port clear s) := by
  unfold Machine.answerReadPort
  split
  · exact refl g s
  · split
    · exact sendNonReply ..
    · refine trans ?_ (sendNonReply ..)
      split
      · exact modPort (.of_same rfl rfl rfl rfl rfl)
      · exact refl g s

theorem withoutFirst (f : ImmediateRequest → Bool) (s : State) : Moves query g s g (s.withoutFirst f) := calm .aside

end Moves

end Sys2Proof.Machine

/-! SUPPORT. The queued requests as moves (chapters 04 and 10), and what every command is made of: moves, or at a grant
moves with a record entered after them. -/

namespace Sys2Proof.Machine

/-! ### What the requests find -/

section Found

variable {s : State}

theorem State.head_of_headRequest {rq : Request} (h : s.headRequest = some rq) :
    s.admission.queue.head? = some rq := by
  unfold State.headRequest at h
  split at h
  · cases h
  · exact h

theorem State.recordAt_of_recordCount (h : s.recordCount = 0) (i : Slot) : s.recordAt i = none := by
  have notThere := List.filter_eq_nil_iff.1 (List.eq_nil_of_length_eq_zero h) i (List.mem_finRange i)
  simpa using notThere

theorem State.placeOf_some {a : Addr} {j : Place} (h : s.placeOf a = some j) :
    ∃ x, s.stations[j] = some x ∧ x.addr = a := by
  rw [State.placeOf, find_finRange_lowest] at h
  obtain ⟨holds, -⟩ := h
  split at holds
  · next x hx => exact ⟨x, hx, by simpa using holds⟩
  · cases holds

/-- The place taken for an owner holds no pinned entry (R170). -/
theorem State.placeForOwner_unpinned {j : Place} (h : s.placeForOwner = some j) :
    ∀ y, s.stations[j] = some y → y.pins = 0 := by
  intro y hy
  unfold State.placeForOwner at h
  split at h
  · next k free =>
    cases h
    rw [(State.lowestPlace_free.1 free).1] at hy
    cases hy
  · split at h
    · next k unseen =>
      cases h
      have fits := (State.lowestPlace_eq.1 unseen).1
      rw [hy] at fits
      have fits : y.pins = 0 ∧ y.seen = false := by simpa using fits
      exact fits.1
    · have fits := (State.lowestPlace_eq.1 h).1
      rw [hy] at fits
      simpa using fits

theorem State.placeForOwner_none (h : s.placeForOwner = none) (j : Place) :
    ∃ y, s.stations[j] = some y ∧ y.pins ≠ 0 := by
  unfold State.placeForOwner at h
  split at h
  · cases h
  · next full =>
    split at h
    · cases h
    · obtain ⟨y, hy⟩ := Option.isSome_iff_exists.1 (State.lowestPlace_full.1 full j)
      have pinned := State.lowestPlace_none.1 h j
      rw [hy] at pinned
      exact ⟨y, hy, by simpa using pinned⟩

end Found

namespace Moves

variable {query : Bool} {g : Ghost} {s : State} {l : List Slot} {a : List Addr}

/-! ### The request in hand -/

theorem takeHead {rq : Request} (head : s.admission.queue.head? = some rq) :
    Moves query ⟨none, l, a⟩ s ⟨some rq.master, l, a⟩ (leaveQueue s) := master (.taken head)

theorem answerHand (m : MasterIndex) (st : Status) (body : AnswerBody) (s : State) :
    Moves query ⟨some m, l, a⟩ s ⟨none, l, a⟩ (answerMaster m st body s) := by
  rcases answerMaster_cases m st body s with h | ⟨e, cr, he, _, h⟩
  · rw [h]; exact master .dropped
  · rw [h]; exact master (.answered he ..)

theorem deferHand (m : MasterIndex) (x : Awaited) (s : State) :
    Moves query ⟨some m, l, a⟩ s ⟨none, l, a⟩ (deferMaster m x s) := master (.deferred x)

theorem deferHandToSwitch (m : MasterIndex) (x : Awaited) (s : State) :
    Moves query ⟨some m, l, a⟩ s ⟨none, l, a⟩ (deferToSwitch m x s) :=
  trans (t := { s with switchAnswers := s.switchAnswers ++ [m] }) (calm .aside) (deferHand ..)

/-! ### RELEASE (R92, R35) -/

theorem joinWaiters (i : Slot) (m : MasterIndex) (s : State) :
    Moves query ⟨some m, l, a⟩ s ⟨none, l, a⟩ (Machine.joinWaiters i m s) :=
  (modRecord fun _ _ => {}).trans (deferHand ..)

theorem releaseRecord {i : Slot} {r : Record} (hr : s.recordAt i = some r) (m : MasterIndex) (n : Nat) :
    Moves query ⟨some m, [], a⟩ s ⟨none, [], a⟩ (Machine.releaseRecord m n i r s) := by
  have standing (h : r.state.standing = true) :
      Moves query ⟨some m, [], a⟩ s ⟨none, [], a⟩ (Machine.joinWaiters i m (Machine.endRecord i .released s)) :=
    (endRecord hr h .released).trans (joinWaiters ..)
  cases h : r.state with
  | pending =>
    rw [releaseRecord_of_pending h]
    exact (cancelRecord hr h .released).trans (deferHandToSwitch ..)
  | active =>
    rw [releaseRecord_of_standing (.inl h)]
    exact standing (by rw [h]; rfl)
  | dormant =>
    rw [releaseRecord_of_standing (.inr (.inl h))]
    exact standing (by rw [h]; rfl)
  | suspended =>
    rw [releaseRecord_of_standing (.inr (.inr h))]
    exact standing (by rw [h]; rfl)
  | ending =>
    rw [releaseRecord_of_ending h]
    exact joinWaiters ..

theorem takeRelease {rq : Request} (head : s.admission.queue.head? = some rq) (n : Nat) :
    Moves query .clear s .clear (Machine.takeRelease rq n s) := by
  have refused (st : Status) (body : AnswerBody) :
      Moves query .clear s .clear (answerMaster rq.master st body (leaveQueue s)) :=
    (takeHead head).trans (answerHand ..)
  unfold Machine.takeRelease
  split
  · exact refused ..
  · split
    · exact refused ..
    · split
      · exact refl ..
      · next r hr =>
        split
        · exact refused ..
        · exact (takeHead head).trans (releaseRecord (s := leaveQueue s) hr ..)

/-! ### The administrator's requests (chapter 10) -/

theorem setHeld {rq : Request} (head : s.admission.queue.head? = some rq) (held : Bool) :
    Moves query .clear s .clear (Machine.setHeld rq.master held s) := by
  refine trans (takeHead head) ?_
  refine trans (t := { leaveQueue s with admission := { (leaveQueue s).admission with held := held } }) (calm .aside) ?_
  exact answerHand ..

theorem takeSetPortPolicy {rq : Request} (head : s.admission.queue.head? = some rq)
    (port share jitter missLimit late : Nat) (capable : Bool) (quota : Nat) :
    Moves query .clear s .clear
      (Machine.takeSetPortPolicy rq.master port share jitter missLimit late capable quota s) := by
  have refused (st : Status) (body : AnswerBody) :
      Moves query .clear s .clear (answerMaster rq.master st body (leaveQueue s)) :=
    (takeHead head).trans (answerHand ..)
  unfold Machine.takeSetPortPolicy
  dsimp only
  split
  · exact refused ..
  · split
    · exact refused ..
    · split
      · split
        · exact refused ..
        · next bears =>
          refine trans (takeHead head) (trans (policy (s := leaveQueue s) ?_) (answerHand ..))
          exact Nat.le_of_not_lt bears
      · exact (takeHead head).trans (master .dropped)

theorem takeSetTiming {rq : Request} (head : s.admission.queue.head? = some rq) (h : Nat) :
    Moves query .clear s .clear (Machine.takeSetTiming rq.master h s) := by
  have refused (st : Status) (body : AnswerBody) :
      Moves query .clear s .clear (answerMaster rq.master st body (leaveQueue s)) :=
    (takeHead head).trans (answerHand ..)
  unfold Machine.takeSetTiming
  dsimp only
  split
  · exact refused ..
  · split
    · exact refused ..
    · split
      · exact refused ..
      · next free =>
        obtain ⟨noRecord, empty⟩ := not_or.1 free
        refine trans (takeHead head) (trans (timing (s := leaveQueue s) h ?_ ?_) (deferHandToSwitch ..))
        · exact State.recordAt_of_recordCount (Decidable.not_not.1 noRecord)
        · exact Decidable.not_not.1 empty

theorem takeSetAge {rq : Request} (head : s.admission.queue.head? = some rq) (seconds : Nat) :
    Moves query .clear s .clear (Machine.takeSetAge rq.master seconds s) := by
  unfold Machine.takeSetAge
  dsimp only
  split
  · exact (takeHead head).trans (answerHand ..)
  · refine trans (takeHead head) ?_
    refine trans (t := { leaveQueue s with ageing := { agePeriod := seconds, sweepCount := 0 } }) (calm .aside) ?_
    exact answerHand ..

theorem clearRecords {rq : Request} (head : s.admission.queue.head? = some rq) (target : Option Port) (why : EndReason)
    (f : Record → Bool) : Moves query .clear s .clear (Machine.clearRecords rq.master target why f s) :=
  ((takeHead head).trans (endAll ..)).trans (deferHandToSwitch ..)

theorem takeClearPort {rq : Request} (head : s.admission.queue.head? = some rq) (port : Nat) :
    Moves query .clear s .clear (Machine.takeClearPort rq.master port s) := by
  unfold Machine.takeClearPort
  split
  · exact (takeHead head).trans (answerHand ..)
  · exact clearRecords head ..

/-! ### The pins of a grant (R170) -/

section Pins

variable {h : Option MasterIndex}

theorem raisePin {x : Addr} {j : Place} (known : s.placeOf x = some j) :
    Moves query ⟨h, [], a⟩ s ⟨h, [], x :: a⟩ (Machine.raisePin x s) := by
  obtain ⟨y, hy, rfl⟩ := State.placeOf_some known
  rw [raisePin_eq known hy]
  exact station (.pinned hy)

theorem pinOwner {d x : Addr} {i : Slot} (p : Port) (free : s.recordAt i = none) :
    Moves query ⟨h, [], [d]⟩ s ⟨h, [], [x, d]⟩ (Machine.pinOwner p x s) := by
  cases place : s.placeOf x with
  | some j =>
    obtain ⟨y, hy, rfl⟩ := State.placeOf_some place
    have moved : Moves query ⟨h, [], [d]⟩ s ⟨h, [], [d]⟩ (s.putStation j (some { y with port := p, seen := true })) :=
      putStation hy rfl rfl
    have there := State.SameAddresses.putStation hy (y := { y with port := p, seen := true }) rfl
    have hy' : s.stations[j.val] = some y := hy
    rw [Machine.pinOwner, place]
    simp only [Fin.getElem_fin, hy']
    split
    · exact (moved.trans (stationMoved ..)).trans
        (raisePin (((there.trans (.endAll _ _ _)).placeOf _).trans place))
    · exact moved.trans (raisePin ((there.placeOf _).trans place))
  | none =>
    rw [Machine.pinOwner, place]
    dsimp only
    split
    · next j hj =>
      exact station (.made (x := { addr := x, port := p, seen := true, pins := 1 })
        (State.placeForOwner_unpinned hj) place rfl)
    · next full => exact station (.full (State.placeForOwner_none full) free)

end Pins

end Moves

/-! ### The grant (R90) -/

/-- The installed windows not retiring, once a slot's windows are marked (R60). -/
theorem filter_retiredFor (i : Slot) (ws : List Window) :
    ((ws.map (Window.retiredFor i)).filter fun w => !w.retiring).Sublist (ws.filter fun w => !w.retiring) := by
  have kept (w : Window) (h : (w.retiredFor i).retiring = false) : w.retiredFor i = w := by
    unfold Window.retiredFor at h ⊢
    split at h
    · simp only at h
      simp only [h, ← (Bool.or_eq_false_iff.1 h).1]
    · rfl
  induction ws with
  | nil => exact List.Sublist.refl _
  | cons w ws ih =>
    rw [List.map_cons]
    cases h : (w.retiredFor i).retiring with
    | true =>
      rw [List.filter_cons_of_neg (by simp [h])]
      exact ih.trans ((List.sublist_cons_self ..).filter _)
    | false =>
      rw [List.filter_cons_of_pos (by simp [h]), kept w h]
      rw [kept w h] at h
      rw [List.filter_cons_of_pos (by simp [h])]
      exact ih.cons_cons w

/-- `t` comes of `s` by pins and the ends of records: no window is planned more, no leg staged, no slot taken. -/
structure Shrunk (s t : State) : Prop where
  straps : t.straps = s.straps
  hExp : t.time.hExp = s.time.hExp
  policy : ∀ q : Port, (t.ports[q]).policy = (s.ports[q]).policy
  pendingH : t.store.pendingH = s.store.pendingH
  changeList : t.store.changeList.Sublist s.store.changeList
  planned : ∀ p : Port, (t.planned p).Sublist (s.planned p)
  free : ∀ i : Slot, s.recordAt i = none → t.recordAt i = none

namespace Shrunk

variable {s t u : State}

theorem of_tables (straps : t.straps = s.straps) (time : t.time = s.time) (slots : t.slots = s.slots)
    (ports : t.ports = s.ports) (store : t.store = s.store) : Shrunk s t where
  straps := straps
  hExp := by rw [time]
  policy := fun q => by rw [ports]
  pendingH := by rw [store]
  changeList := by rw [store]
  planned := fun p => by rw [State.planned, State.planned, State.stagedFor, State.stagedFor, ports, store]
  free := fun i h => by rw [State.recordAt, slots]; exact h

theorem refl (s : State) : Shrunk s s := of_tables rfl rfl rfl rfl rfl

theorem trans (h : Shrunk s t) (k : Shrunk t u) : Shrunk s u where
  straps := k.straps.trans h.straps
  hExp := k.hExp.trans h.hExp
  policy := fun q => (k.policy q).trans (h.policy q)
  pendingH := k.pendingH.trans h.pendingH
  changeList := k.changeList.trans h.changeList
  planned := fun p => (k.planned p).trans (h.planned p)
  free := fun i none => k.free i (h.free i none)

theorem putStation (s : State) (j : Place) (x : Option Station) : Shrunk s (s.putStation j x) :=
  of_tables rfl rfl rfl rfl rfl

theorem endAt (f : Record → Bool) (why : EndReason) (i : Slot) (s : State) : Shrunk s (Machine.endAt f why i s) := by
  have free (j : Slot) (h : s.recordAt j = none) : (Machine.endAt f why i s).recordAt j = none := by
    by_cases same : j = i
    · subst same
      rw [endAt_of_free h]
      exact h
    · rw [State.recordAt, endAt_other_slot f why i j s same]
      exact h
  have quiet := (Walked.endAt f why i s).toQuiet
  refine
    { straps := quiet.straps, hExp := by rw [quiet.time], policy := quiet.policy, pendingH := quiet.pendingH
      changeList := ?_, planned := fun p => ?_, free := free }
  all_goals rcases endAt_cases f why i s with e | ⟨r, _, _, _, e⟩ | ⟨r, hr, _, _, e⟩
  · rw [e]
  · rw [e]
    exact List.Sublist.refl _
  · rw [e, cancelRecord_store hr]
    exact List.filter_sublist
  · rw [e]
  · rw [e, State.planned, State.withEnded_port]
    exact (filter_retiredFor ..).append (List.Sublist.refl _)
  · have calendar : ((Machine.cancelRecord i why s).ports[p]).calendar = (s.ports[p]).calendar := by
      rw [(cancelRecord_told hr why).calendar, freeRecord_ports]
      rfl
    rw [e, State.planned, State.planned, State.stagedFor, State.stagedFor, calendar, cancelRecord_store hr]
    exact (List.Sublist.refl _).append ((List.filter_sublist.filter _).map _)

theorem endAll (f : Record → Bool) (why : EndReason) (s : State) : Shrunk s (Machine.endAll f why s) := by
  rw [endAll_eq]
  exact foldl_related refl trans (endAt f why) _ s

theorem raisePin (x : Addr) (s : State) : Shrunk s (Machine.raisePin x s) := by
  unfold Machine.raisePin modStation
  split
  · exact putStation ..
  · exact refl s

theorem pinForGrant (p : Port) (x d : Addr) (s : State) : Shrunk s (Machine.pinForGrant p x d s) := by
  refine (raisePin d s).trans ?_
  unfold Machine.pinForGrant Machine.pinOwner
  split
  · split
    · exact refl _
    · dsimp only
      split
      · exact ((putStation ..).trans (endAll ..)).trans (raisePin ..)
      · exact (putStation ..).trans (raisePin ..)
  · split
    · exact putStation ..
    · exact refl _

end Shrunk

/-- `v` with record `r` entered in slot `i`, its legs staged, and its owner EXECUTING with one record more (R90,
R107). -/
def State.withGrant (v : State) (i : Slot) (r : Record) : State :=
  { v with
    slots := v.slots.set i { v.slots[i] with record := some r, queue0 := [], queue1 := [] }
    store := { v.store with changeList := v.store.changeList ++ stagedLegsOf i r }
    masters := v.masters.set r.owner ((v.masters[r.owner]).map fun e =>
      { e with held := e.held + 1, phase := .executing, awaited := some (.grant i) }) }

/-- `u` comes of `s` by a grant: the pins, with a move they may report, and then the record. -/
inductive Grants (s : State) : State → Prop
  | intro {rq : Request} {c : ClaimFields} {i : Slot} {l0 : LegPlan} {ret : Option LegPlan} {place : Placement}
      {v : State}
    (granted : s.Granted rq c i l0 ret place)
    (pins : ∀ query, Moves query .clear s ⟨some rq.master, [], [rq.addr, c.dest]⟩ v)
    (shrunk : Shrunk s v) : Grants s (v.withGrant i (grantedRecord rq c l0 ret place))

theorem grantClaim_eq_withGrant (rq : Request) (c : ClaimFields) (i : Slot) (l0 : LegPlan) (ret : Option LegPlan)
    (place : Placement) (s : State) :
    grantClaim rq c i l0 ret place s =
      (pinForGrant rq.port rq.addr c.dest s).withGrant i (grantedRecord rq c l0 ret place) := grantClaim_eq

theorem pinForGrant_moves {s : State} {h : Option MasterIndex} {d : Addr} {j : Place} {i : Slot}
    (known : s.placeOf d = some j) (free : s.recordAt i = none) (query : Bool) (p : Port) (x : Addr) :
    Moves query ⟨h, [], []⟩ s ⟨h, [], [x, d]⟩ (pinForGrant p x d s) :=
  (Moves.raisePin known).trans (Moves.pinOwner p ((Shrunk.raisePin d s).free i free))

/-- A claim is decided by moves, or it is granted. -/
theorem takeClaim_moves {query : Bool} {s : State} {rq : Request} (c : ClaimFields)
    (head : s.admission.queue.head? = some rq) (w : WaitingClaim) :
    Moves query .clear s .clear (takeClaim rq c { s with admission := { s.admission with waiting := w } }) ∨
      Grants s (takeClaim rq c { s with admission := { s.admission with waiting := w } }) := by
  have taken (query : Bool) : Moves query .clear s ⟨some rq.master, [], []⟩
      (leaveQueue { s with admission := { s.admission with waiting := w } }) :=
    (Moves.calm .aside).trans (.takeHead head)
  have same : State.decideClaim { s with admission := { s.admission with waiting := w } } rq c =
      s.decideClaim rq c := rfl
  unfold takeClaim
  rw [same]
  cases decision : s.decideClaim rq c with
  | refuse st body => exact .inl ((taken query).trans (.answerHand ..))
  | wait => exact .inl (.calm .aside)
  | grant i l0 ret place =>
    have granted := State.decideClaim_grant decision
    have free : s.recordAt i = none := (State.freeSlot_eq.1 granted.slot).1
    have known : s.placeOf c.dest ≠ none := by
      intro unknown
      have lookup := granted.known
      rw [State.lookup_none granted.dest_ne unknown] at lookup
      cases lookup
    obtain ⟨j, hj⟩ := Option.ne_none_iff_exists'.1 known
    have shrunk := (Shrunk.of_tables (s := s)
        (t := leaveQueue { s with admission := { s.admission with waiting := w } })
      rfl rfl rfl rfl rfl)
    dsimp only
    rw [grantClaim_eq_withGrant]
    refine .inr (.intro granted ?_ (shrunk.trans (.pinForGrant ..)))
    intro query
    refine (taken query).trans (pinForGrant_moves (j := j) (i := i) ?_ ?_ ..)
    · exact hj
    · exact shrunk.free i free

theorem Moves.boundary {query : Bool} (s : State) :
    Moves query .clear s .clear (Machine.captureBeacon (Machine.takeSwitch s)) :=
  (Moves.takeSwitch s).trans (.captureBeacon _)

/-- What any command but the two of RESET does, before the schedulers apply their choice again. -/
theorem Acts.moves {query : Bool} {s u : State} {c : Instr} (h : Acts s c u) (clears : c = .query → query = true) :
    Moves query .clear s .clear u ∨ Grants s u := by
  have ready {t : State} (x : TimeBase) (same : x.hExp = s.startReady.time.hExp)
      (moves : Moves query .clear { s.startReady with time := x } .clear t) :
      Moves query .clear s .clear t :=
    ((Moves.startReady s).trans (.calm (.aside (hExp := same)))).trans moves
  cases h with
  | baseCycleStart lines due =>
    exact .inl (ready { s.startReady.time with startDue := false } rfl (.sampleLinks lines _))
  | endOfSettlePeriod due =>
    exact .inl (ready { s.startReady.time with boundaryDue := .none, b := 0, hypercycle := 0 } rfl (.boundary _))
  | hypercycleBoundary due =>
    exact .inl (ready
      { s.startReady.time with boundaryDue := .none, hypercycle := s.startReady.time.hypercycle + 1 } rfl (.boundary _))
  | sweep due => exact .inl (.sweepTable s)
  | windowOpening p o w opens => exact .inl (.openWindow p w s)
  | windowEnd p ended => exact .inl (.endInstance p s)
  | frameReceived p f up => exact .inl (.takeFrame p f s)
  | query rq n clear part first body =>
    obtain rfl : query = true := clears rfl
    exact .inl ((Moves.withoutFirst ..).trans (.answerQuery ..))
  | readCalendar rq port entry first body => exact .inl ((Moves.withoutFirst ..).trans (.answerReadCalendar ..))
  | readPort rq port clear first body => exact .inl ((Moves.withoutFirst ..).trans (.answerReadPort ..))
  | claim rq c head body => exact takeClaim_moves c (State.head_of_headRequest head) s.admission.waiting
  | takeUpWaitingClaim rq c waits head body => exact takeClaim_moves c head .none
  | release rq n head body => exact .inl (.takeRelease (State.head_of_headRequest head) n)
  | hold rq head body => exact .inl (.setHeld (State.head_of_headRequest head) _)
  | resume rq head body => exact .inl (.setHeld (State.head_of_headRequest head) _)
  | setPortPolicy rq port share jitter missLimit late capable quota head body =>
    exact .inl (.takeSetPortPolicy (State.head_of_headRequest head) ..)
  | setTiming rq h head body => exact .inl (.takeSetTiming (State.head_of_headRequest head) h)
  | setAge rq seconds head body => exact .inl (.takeSetAge (State.head_of_headRequest head) seconds)
  | clearPort rq port head body => exact .inl (.takeClearPort (State.head_of_headRequest head) port)
  | clearCell rq head body => exact .inl (.clearRecords (State.head_of_headRequest head) ..)
  | frameReady i n due => exact .inl (.becomeReady i n s)
  | frameTransmitEnd p ended => exact .inl (.endTransmission p s)

/-- What any command does. -/
theorem exec_moves {query : Bool} {c : Instr} {s t : State} (h : exec c s = .next t)
    (clears : c = .query → query = true) :
    Moves query .clear s .clear t ∨
      (∃ u, Grants s u ∧ Moves query .clear u .clear t) ∨
      ∃ straps lines pending, t = State.resetWith straps lines pending := by
  rcases exec_cases h with same | ⟨_, u, acts, settled⟩ | ⟨_, asserted⟩ | ⟨straps, _, released⟩
  · rw [same]
    exact .inl (.refl ..)
  · rw [settled]
    rcases acts.moves clears with moves | grants
    · exact .inl (moves.trans (.settleEgress u))
    · exact .inr (.inl ⟨u, grants, .settleEgress u⟩)
  · have cut : Moves query .clear s .clear (overPorts (fun p s => s.modPort p PortState.cut) s) :=
      Moves.overPorts (fun p t => .modPort (f := PortState.cut) (.of_tx (List.nil_sublist _) rfl (.refl _) rfl rfl)) s
    rw [execResetAsserted_eq] at asserted
    rw [overPorts_frame (fun p s => s.modPort p PortState.cut) (fun _ _ => rfl) s] at cut
    rw [← Host.Outcome.next.inj asserted]
    generalize (overPorts (fun p s => s.modPort p PortState.cut) s).ports = ports at cut
    exact .inl (cut.trans (.calm .aside))
  · exact .inr (.inr ⟨_, _, _, released⟩)

/-- An invariant of every step: kept by the moves, by a grant, and true after the release of RESET. -/
theorem step_keeps {Inv : Ghost → State → Prop}
    (moves : ∀ {g h : Ghost} {s t : State}, Moves true g s h t → Inv g s → Inv h t)
    (grants : ∀ {s u : State}, Grants s u → Inv .clear s → Inv .clear u)
    (reset : ∀ straps lines pending, Inv .clear (State.resetWith straps lines pending)) {s t : State}
    (h : step s = .next t) (inv : Inv .clear s) : Inv .clear t := by
  rcases step_cases h with same | ⟨c, l, h⟩ | ⟨_, _, ticked⟩
  · rw [same]
    exact inv
  · have queued : Inv .clear (s.withPending l) := moves (.calm .aside) inv
    rcases exec_moves (query := true) h fun _ => rfl with m | ⟨u, granted, m⟩ | ⟨straps, lines, pending, released⟩
    · exact moves m queued
    · exact moves m (grants granted queued)
    · rw [released]
      exact reset ..
  · rw [ticked]
    exact moves ((Moves.advanceClock s).trans (.settleEgress _)) inv

end Sys2Proof.Machine

/-! SUPPORT. What the moves leave of the other tables, and O53 and O54: a record only ages, or it goes with its slot's
reuse value (R17, R19, R20, R26, R34, R42, R133). -/

namespace Sys2Proof.Machine

/-! ### What a move of a master or of a station leaves alone -/

/-- Slots, calendar store, stations and time base are the same, and of each port all but the reply places. -/
structure TablesKept (s t : State) : Prop where
  slots : t.slots = s.slots := by rfl
  store : t.store = s.store := by rfl
  stations : t.stations = s.stations := by rfl
  straps : t.straps = s.straps := by rfl
  time : t.time = s.time := by rfl
  calendar : ∀ q : Port, (t.ports[q]).calendar = (s.ports[q]).calendar := by exact fun _ => rfl
  policy : ∀ q : Port, (t.ports[q]).policy = (s.ports[q]).policy := by exact fun _ => rfl
  openQueue : ∀ q : Port, (t.ports[q]).openQueue = (s.ports[q]).openQueue := by exact fun _ => rfl
  nonReplies : ∀ q : Port, (t.ports[q]).nonReplies = (s.ports[q]).nonReplies := by exact fun _ => rfl

/-- A reply takes no place of the others (R116). -/
theorem State.answered_nonReplies (s : State) (m : MasterIndex) (e : Master) (cr : CurrentRequest) (st : Status)
    (body : AnswerBody) (q : Port) : ((s.answered m e cr st body).ports[q]).nonReplies = (s.ports[q]).nonReplies := by
  have added (ps : PortState) :
      ({ ps with controlQueue := ps.controlQueue ++ [replyTo m e cr st body] } : PortState).nonReplies =
        ps.nonReplies := by
    rw [PortState.nonReplies, PortState.nonReplies, List.filter_append, List.length_append]
    rfl
  unfold State.answered
  split
  · have port := s.modPort_get e.port q fun ps => { ps with
        controlQueue := ps.controlQueue ++ [replyTo m e cr st body] }
    refine (congrArg PortState.nonReplies port).trans ?_
    split
    · next h => subst h; exact added _
    · rfl
  · rfl

theorem TablesKept.answered (s : State) (m : MasterIndex) (e : Master) (cr : CurrentRequest) (st : Status)
    (body : AnswerBody) : TablesKept s (s.answered m e cr st body) := by
  have told := Told.answered s m e cr st body
  exact
    { slots := told.slots, store := told.store, stations := told.stations, straps := told.quiet.straps
      time := told.quiet.time, calendar := told.calendar, policy := told.quiet.policy
      openQueue := fun q => by rw [told.port q], nonReplies := s.answered_nonReplies m e cr st body }

theorem MasterStep.kept {g h : Ghost} {s t : State} (m : MasterStep g s h t) : TablesKept s t := by
  cases m with
  | told | answered => exact .answered ..
  | taken | deferred | dropped | accepted => exact {}

theorem StationStep.frame {g h : Ghost} {s t : State} (m : StationStep g s h t) :
    t = { s with stations := t.stations } := by
  cases m <;> rfl

/-! ### Records over any command -/

/-- Every record of `t` is one of `s` grown older in the same use of its slot. -/
def Lineage (query : Bool) (s t : State) : Prop :=
  ∀ i : Slot, ∀ r', t.recordAt i = some r' →
    (t.slots[i]).reuse = (s.slots[i]).reuse ∧ ∃ r, s.recordAt i = some r ∧ Aged query r r'

namespace Lineage

variable {query : Bool} {s t u : State}

theorem of_slots (h : t.slots = s.slots) : Lineage query s t := fun i r' hr' => by
  rw [State.recordAt, h] at hr'
  exact ⟨by rw [h], r', hr', .refl ..⟩

theorem trans (h : Lineage query s t) (k : Lineage query t u) : Lineage query s u := fun i r'' hr'' => by
  obtain ⟨reuse, r', hr', aged'⟩ := k i r'' hr''
  obtain ⟨reuse', r, hr, aged⟩ := h i r' hr'
  exact ⟨reuse.trans reuse', r, hr, aged.trans aged'⟩

/-- One slot changes, and its record is no younger than before. -/
theorem of_slot {i : Slot} (other : ∀ j : Slot, j ≠ i → t.slots[j] = s.slots[j])
    (here : ∀ r', t.recordAt i = some r' →
      (t.slots[i]).reuse = (s.slots[i]).reuse ∧ ∃ r, s.recordAt i = some r ∧ Aged query r r') : Lineage query s t :=
  fun j r' hr' => by
    by_cases same : j = i
    · subst same
      exact here r' hr'
    · rw [State.recordAt, other j same] at hr'
      exact ⟨by rw [other j same], r', hr', .refl ..⟩

theorem of_calm {ms : List MasterIndex} (h : Calm query ms s t) : Lineage query s t := fun i r' hr' => by
  have record := (h.slots i).record
  rw [show (t.slots[i]).record = some r' from hr'] at record
  refine ⟨(h.slots i).reuse, ?_⟩
  cases hr : (s.slots[i]).record with
  | none => rw [hr] at record; cases record
  | some r =>
    rw [hr] at record
    cases record with
    | some kept => exact ⟨r, hr, kept.toAged⟩

end Lineage

theorem State.withRecord_slot_self (s : State) (i : Slot) (o : Option Record) :
    (s.withRecord i o).slots[i] = { s.slots[i] with record := o } :=
      s.modSlot_get_self i fun c => { c with record := o }

theorem State.withRecord_slot_ne (s : State) {i j : Slot} (h : j ≠ i) (o : Option Record) :
    (s.withRecord i o).slots[j] = s.slots[j] := s.modSlot_get_ne i j (fun c => { c with record := o }) h

theorem freeRecord_lineage {query : Bool} {s : State} {i : Slot} {r : Record} (hr : s.recordAt i = some r) :
    Lineage query s (freeRecord i s) :=
  .of_slot (fun _ h => freeRecord_other_slot h s) fun r' hr' => by
    rw [State.recordAt, freeRecord_slot hr] at hr'
    cases hr'

theorem Moves.lineage {query : Bool} {g h : Ghost} {s t : State} (m : Moves query g s h t) : Lineage query s t := by
  induction m with
  | refl g s => exact .of_slots rfl
  | trans _ _ ih ih' => exact ih.trans ih'
  | calm h => exact .of_calm h
  | master h => exact .of_slots h.kept.slots
  | station h => exact .of_slots (by rw [h.frame])
  | @ended g s i r hr standing why =>
    refine .of_slot (fun j other => State.withEnded_other other) fun r' hr' => ?_
    rw [State.recordAt, State.withEnded_slot] at hr'
    cases hr'
    exact ⟨by rw [State.withEnded_slot], r, hr,
      { droppedFrames := le_satAdd .., ending := fun h => absurd h (RecordState.not_ending_of_standing standing) }⟩
  | freed hr ending => exact freeRecord_lineage hr
  | @withdrawn h a s i r hr pending =>
    exact (Lineage.of_slots (t := withdraw i s) rfl).trans (freeRecord_lineage (s := withdraw i s) hr)
  | policy bears => exact .of_slots rfl
  | timing n free empty => exact .of_slots rfl
  | switched => exact .of_slots (calendarSwitch_slots _)
  | @installed h l a s i r st hr pending standing empty n =>
    refine .of_slot (fun j other => s.withRecord_slot_ne other _) fun r' hr' => ?_
    rw [State.withRecord_recordAt] at hr'
    cases hr'
    refine ⟨?_, r, hr, { ending := fun h => by rw [pending] at h; cases h }⟩
    rw [s.withRecord_slot_self]
  | passed other => exact .of_slots rfl

theorem State.withGrant_other_slot (v : State) {i j : Slot} (h : j ≠ i) (r : Record) :
    (v.withGrant i r).slots[j] = v.slots[j] := v.modSlot_get_ne i j (fun _ => _) h

/-- A record that stands before and after a command is one record. -/
theorem exec_aged {query : Bool} {c : Instr} {s t : State} (h : exec c s = .next t)
    (clears : c = .query → query = true) {i : Slot} {r r' : Record} (hr : s.recordAt i = some r)
    (hr' : t.recordAt i = some r') : (t.slots[i]).reuse = (s.slots[i]).reuse ∧ Aged query r r' := by
  have same (l : Lineage query s t) : (t.slots[i]).reuse = (s.slots[i]).reuse ∧ Aged query r r' := by
    obtain ⟨reuse, x, hx, aged⟩ := l i r' hr'
    cases hr.symm.trans hx
    exact ⟨reuse, aged⟩
  rcases exec_moves h clears with m | ⟨u, granted, m⟩ | ⟨straps, lines, pending, rfl⟩
  · exact same m.lineage
  · obtain ⟨reuse, x, hx, aged⟩ := m.lineage i r' hr'
    cases granted with
    | @intro rq c j l0 ret place v granted pins shrunk =>
      have other : i ≠ j := by
        rintro rfl
        rw [(State.freeSlot_eq.1 granted.slot).1] at hr
        cases hr
      rw [v.withGrant_other_slot other] at reuse
      rw [State.recordAt, v.withGrant_other_slot other] at hx
      obtain ⟨reuse', y, hy, aged'⟩ := (pins query).lineage i x hx
      cases hr.symm.trans hy
      exact ⟨reuse.trans reuse', aged'.trans aged⟩
  · rw [resetWith_recordAt] at hr'
    cases hr'

theorem LegKept.claimed {l l' : Leg} (h : LegKept l l') :
    (l'.ingress, l'.egress, l'.frameSize, l'.framesPerWindow, l'.offset, l'.length, l'.speed) =
      (l.ingress, l.egress, l.frameSize, l.framesPerWindow, l.offset, l.length, l.speed) := by
  rw [h.ingress, h.egress, h.frameSize, h.framesPerWindow, h.offset, h.length, h.speed]

/-- Settles O53: a record that stands before and after a command has aged, and ageing changes nothing claimed. -/
theorem claimedFieldsNeverChange : Obligations.ClaimedFieldsNeverChange := by
  intro c s t i r r' h hr hr' claimed
  obtain ⟨reuse, aged⟩ := exec_aged (query := true) h (fun _ => rfl) hr hr'
  refine ⟨reuse, ?_, ?_, aged.leg0.claimed, ?_⟩
  · rw [aged.owner, aged.ownerPort, aged.ownerAddr, aged.destAddr]
  · rw [aged.rate, aged.phase, aged.turnaround]
  · cases hl : r.leg1 with
    | none => rw [aged.noLeg1 hl]
    | some l =>
      obtain ⟨l', hl', kept⟩ := aged.leg1 l hl
      rw [hl']
      exact congrArg some kept.claimed

/-- Settles O54: ageing loses no flag but at a QUERY, lowers no count and raises no remaining count and no lead. -/
theorem flagsAndCountsOnlyAccumulate : Obligations.FlagsAndCountsOnlyAccumulate := by
  intro c s t i r r' h hr hr'
  have aged := (exec_aged (query := true) h (fun _ => rfl) hr hr').2
  refine ⟨fun other => ?_, aged.missedWindows, aged.lateFrames, aged.droppedFrames, aged.unlimited, aged.remaining,
    aged.leg0.lead, fun l x hl hx => ?_, aged.ending⟩
  · have flags := (exec_aged (query := false) h (fun same => absurd same other) hr hr').2.flags rfl
    exact ⟨flags.late, flags.missed, flags.overflow, flags.oversize, flags.dormantSeen, flags.noticeLost⟩
  · obtain ⟨l', hl', kept⟩ := aged.leg1 l hl
    exact ⟨l', hl', kept.lead x hx⟩

end Sys2Proof.Machine

/-! SUPPORT. Calendars, change list and reservation table over any command: the beacon window and the order of R48 and
R50 (O56), and the fit of windows to records with the laws of R55 (O57). -/

namespace Sys2Proof.Machine

/-! ### What most moves leave of the calendars -/

/-- The record of slot `i` is ACTIVE, DORMANT or SUSPENDED. -/
def State.stands (s : State) (i : Slot) : Bool := (s.recordAt i).any fun r => r.state.standing

/-- The record of slot `i` is PENDING. -/
def State.pends (s : State) (i : Slot) : Bool := (s.recordAt i).any fun r => r.state == .pending

/-- Calendars, policies, change list, pending H, straps and H are the same, standing records stand, PENDING ones are
PENDING, and FREE slots stay FREE. -/
structure TablesCalm (s t : State) : Prop where
  calendar : ∀ q : Port, (t.ports[q]).calendar = (s.ports[q]).calendar
  policy : ∀ q : Port, (t.ports[q]).policy = (s.ports[q]).policy
  changeList : t.store.changeList = s.store.changeList
  pendingH : t.store.pendingH = s.store.pendingH
  straps : t.straps = s.straps
  hExp : t.time.hExp = s.time.hExp
  stands : ∀ i : Slot, s.stands i = true → t.stands i = true
  pends : ∀ i : Slot, s.pends i = true → t.pends i = true
  free : ∀ i : Slot, s.recordAt i = none → t.recordAt i = none

section

variable {query : Bool} {s t : State}

theorem State.stands_of {i : Slot} {r : Record} (hr : s.recordAt i = some r) : s.stands i = r.state.standing := by
  rw [State.stands, hr]
  rfl

theorem State.pends_of {i : Slot} {r : Record} (hr : s.recordAt i = some r) : s.pends i = (r.state == .pending) := by
  rw [State.pends, hr]
  rfl

theorem State.stands_of_free {i : Slot} (hr : s.recordAt i = none) : s.stands i = false := by
  rw [State.stands, hr]
  rfl

theorem State.pends_of_free {i : Slot} (hr : s.recordAt i = none) : s.pends i = false := by
  rw [State.pends, hr]
  rfl

theorem State.record_of_pends {i : Slot} (h : s.pends i = true) :
    ∃ r, s.recordAt i = some r ∧ r.state = .pending := by
  simpa [State.pends, Option.any_eq_true] using h

theorem Calm.tables {ms : List MasterIndex} (h : Calm query ms s t) : TablesCalm s t := by
  have record (i : Slot) : Option.Rel (Kept query) (s.recordAt i) (t.recordAt i) := (h.slots i).record
  have kept (i : Slot) {r : Record} (hr : s.recordAt i = some r) : ∃ r', t.recordAt i = some r' ∧ Kept query r r' := by
    have rel := record i
    rw [hr] at rel
    cases ht : t.recordAt i with
    | none => rw [ht] at rel; cases rel
    | some r' =>
      rw [ht] at rel
      cases rel with
      | some k => exact ⟨r', rfl, k⟩
  refine
    { calendar := fun q => (h.ports q).calendar, policy := fun q => (h.ports q).policy, changeList := h.changeList
      pendingH := h.pendingH, straps := h.straps, hExp := h.hExp, stands := fun i hi => ?_, pends := fun i hi => ?_
      free := fun i hi => ?_ }
  · obtain ⟨r, hr, standing⟩ := (Option.any_eq_true ..).1 hi
    obtain ⟨r', hr', k⟩ := kept i hr
    rw [State.stands_of hr']
    rcases k.state with same | ⟨_, standing'⟩
    · rw [same]
      exact standing
    · exact standing'
  · obtain ⟨r, hr, pending⟩ := State.record_of_pends hi
    obtain ⟨r', hr', k⟩ := kept i hr
    rw [State.pends_of hr']
    rcases k.state with same | ⟨standing, _⟩
    · rw [same, pending]
      rfl
    · exact absurd pending (RecordState.not_pending_of_standing standing)
  · have rel := record i
    rw [hi] at rel
    cases ht : t.recordAt i with
    | none => rfl
    | some r' => rw [ht] at rel; cases rel

theorem TablesCalm.of_slots (slots : t.slots = s.slots)
    (calendar : ∀ q : Port, (t.ports[q]).calendar = (s.ports[q]).calendar)
    (policy : ∀ q : Port, (t.ports[q]).policy = (s.ports[q]).policy) (store : t.store = s.store)
    (straps : t.straps = s.straps) (time : t.time = s.time) : TablesCalm s t where
  calendar := calendar
  policy := policy
  changeList := by rw [store]
  pendingH := by rw [store]
  straps := straps
  hExp := by rw [time]
  stands := fun i hi => by rw [State.stands, State.recordAt, slots]; exact hi
  pends := fun i hi => by rw [State.pends, State.recordAt, slots]; exact hi
  free := fun i hi => by rw [State.recordAt, slots]; exact hi

theorem MasterStep.tables {g h : Ghost} (m : MasterStep g s h t) : TablesCalm s t :=
  have kept := m.kept
  .of_slots kept.slots kept.calendar kept.policy kept.store kept.straps kept.time

theorem StationStep.tables {g h : Ghost} (m : StationStep g s h t) : TablesCalm s t := by
  rw [m.frame]
  exact .of_slots rfl (fun _ => rfl) (fun _ => rfl) rfl rfl rfl

/-- One slot loses a record that neither stands nor is PENDING. -/
theorem freeRecord_tables {i : Slot} {r : Record} (hr : s.recordAt i = some r) (ending : r.state = .ending) :
    TablesCalm s (freeRecord i s) := by
  have other {j : Slot} (h : j ≠ i) : (freeRecord i s).recordAt j = s.recordAt j :=
    congrArg SlotCell.record (freeRecord_other_slot h s)
  refine
    { calendar := fun q => by rw [freeRecord_ports], policy := fun q => by rw [freeRecord_ports]
      changeList := by rw [freeRecord_frame], pendingH := by rw [freeRecord_frame], straps := by rw [freeRecord_frame]
      hExp := by rw [freeRecord_frame], stands := fun j hj => ?_, pends := fun j hj => ?_, free := fun j hj => ?_ }
  · have apart : j ≠ i := by
      rintro rfl
      rw [State.stands_of hr, ending] at hj
      cases hj
    rw [State.stands, other apart]
    exact hj
  · have apart : j ≠ i := by
      rintro rfl
      rw [State.pends_of hr, ending] at hj
      cases hj
    rw [State.pends, other apart]
    exact hj
  · have apart : j ≠ i := by
      rintro rfl
      rw [hr] at hj
      cases hj
    rw [other apart]
    exact hj

end

/-! ### The beacon window and the order (R48, R50) -/

section Sound

variable {s t : State}

theorem State.CalendarsSound.of_calendars (sound : s.CalendarsSound)
    (calendar : ∀ q : Port, (t.ports[q]).calendar = (s.ports[q]).calendar) (hExp : t.time.hExp = s.time.hExp) :
    t.CalendarsSound where
  beacon := fun p => by rw [calendar, hExp]; exact sound.beacon p
  ordered := fun p => by rw [calendar]; exact sound.ordered p

theorem Window.retiredFor_reserves (i : Slot) (w : Window) : (w.retiredFor i).reserves = w.reserves := by
  rw [Window.reserves, Window.retiredFor_owner, Window.reserves]

theorem windowBefore_retiredFor (i : Slot) (a b : Window) :
    windowBefore (a.retiredFor i) (b.retiredFor i) = windowBefore a b := by
  have offset (w : Window) : (w.retiredFor i).offset = w.offset := by unfold Window.retiredFor; split <;> rfl
  have phase (w : Window) : (w.retiredFor i).phase = w.phase := by unfold Window.retiredFor; split <;> rfl
  simp only [windowBefore, offset, phase]

theorem State.CalendarsSound.withEnded (sound : s.CalendarsSound) (i : Slot) (why : EndReason) (r : Record) :
    (s.withEnded i why r).CalendarsSound where
  beacon := fun p => by
    rw [State.withEnded_port]
    show ((s.ports[p]).calendar.map _).filter _ = _
    rw [List.filter_map]
    have same : (fun w : Window => !w.reserves) ∘ Window.retiredFor i = fun w => !w.reserves :=
      funext fun w => congrArg not (Window.retiredFor_reserves i w)
    rw [same, sound.beacon p]
    rfl
  ordered := fun p => by
    rw [State.withEnded_port]
    refine List.pairwise_map.2 ((sound.ordered p).imp fun ab => ?_)
    rw [windowBefore_retiredFor]
    exact ab

theorem calendarSwitch_hExp (s : State) : (calendarSwitch s).time.hExp = s.switchH := by rw [calendarSwitch_frame]

/-- The planned view has the one beacon window, and no staged leg is one. -/
theorem State.CalendarsSound.planned_beacon (sound : s.CalendarsSound) (p : Port) :
    (s.planned p).filter (fun w => !w.reserves) = [beaconWindow s.time.hExp] := by
  have staged : ((s.stagedFor p).map StagedLeg.window).filter (fun w => !w.reserves) = [] := by
    refine List.filter_eq_nil_iff.2 fun w hw => ?_
    obtain ⟨e, _, rfl⟩ := List.mem_map.1 hw
    simp [Window.reserves, StagedLeg.window]
  rw [State.planned, List.filter_append, staged, List.append_nil, List.filter_comm, sound.beacon p]
  rfl

theorem beaconWindow_atPendingH (s : State) :
    (beaconWindow s.time.hExp).atPendingH s.store.pendingH = beaconWindow s.switchH := by
  unfold Window.atPendingH State.switchH
  cases s.store.pendingH with
  | none => rfl
  | some h => rfl

theorem State.CalendarsSound.calendarSwitch (sound : s.CalendarsSound) : (Machine.calendarSwitch s).CalendarsSound where
  beacon := fun p => by
    have perm := (calendarSwitch_perm s p).filter fun w => !w.reserves
    have same : (fun w : Window => !w.reserves) ∘ Window.atPendingH s.store.pendingH = fun w => !w.reserves := by
      funext w
      simp [Window.reserves]
    rw [List.filter_map, same, sound.planned_beacon p, List.map_singleton, beaconWindow_atPendingH] at perm
    rw [calendarSwitch_hExp]
    exact List.perm_singleton.1 perm
  ordered := fun p => calendarSwitch_ordered (sound.ordered p)

theorem Moves.calendarsSound {query : Bool} {g h : Ghost} (m : Moves query g s h t) (sound : s.CalendarsSound) :
    t.CalendarsSound := by
  induction m with
  | refl => exact sound
  | trans _ _ ih ih' => exact ih' (ih sound)
  | calm h => exact sound.of_calendars h.tables.calendar h.tables.hExp
  | master h => exact sound.of_calendars h.tables.calendar h.tables.hExp
  | station h => exact sound.of_calendars h.tables.calendar h.tables.hExp
  | ended hr standing why => exact sound.withEnded ..
  | freed hr ending =>
    exact sound.of_calendars (freeRecord_tables hr ending).calendar (freeRecord_tables hr ending).hExp
  | @withdrawn h a s i r hr pending =>
    exact sound.of_calendars (fun q => by rw [freeRecord_ports]; rfl) (by rw [freeRecord_frame]; rfl)
  | @policy g s p new bears =>
    refine sound.of_calendars (fun q => ?_) rfl
    rw [writePolicy, State.modPort_get]
    split
    · next h => subst h; rfl
    · rfl
  | timing => exact sound.of_calendars (fun _ => rfl) rfl
  | switched => exact sound.calendarSwitch
  | installed => exact sound.of_calendars (fun _ => rfl) rfl
  | passed => exact sound

theorem resetWith_calendarsSound (straps : Straps) (lines : Vector PhyLines 8) (pending : List Instr) :
    (State.resetWith straps lines pending).CalendarsSound where
  beacon := fun p => by rw [resetWith_port]; rfl
  ordered := fun p => by rw [resetWith_port]; exact List.pairwise_singleton ..

theorem Grants.calendarsSound (h : Grants s t) (sound : s.CalendarsSound) : t.CalendarsSound := by
  cases h with
  | intro granted pins shrunk => exact ((pins true).calendarsSound sound).of_calendars (fun _ => rfl) rfl

end Sound

/-- Settles O56: every move keeps it, the switch by R61, and a grant touches no calendar. -/
theorem calendarsStaySound : Obligations.CalendarsStaySound := fun _ _ sound h =>
  step_keeps (Inv := fun _ s => s.CalendarsSound) Moves.calendarsSound Grants.calendarsSound resetWith_calendarsSound h
    sound

end Sys2Proof.Machine

/-! SUPPORT. The windows, the change list and the reservation table over any command (O57): each window has its
record, and the three laws of R55 hold in every installed calendar and every planned view. -/

namespace Sys2Proof.Machine

/-! ### Windows have their records (R49, R57, R60, R69) -/

/-- `State.TableFits` while the switch is half done: the windows of the slots of `l` are installed, and their records
are still PENDING. -/
structure State.TableFitsWith (l : List Slot) (s : State) : Prop where
  windows : ∀ p : Port, ∀ w ∈ (s.ports[p]).calendar, ∀ i n, w.owner = .leg i n → w.retiring = false →
    s.stands i = true ∨ (s.pends i = true ∧ i ∈ l)
  staged : ∀ e ∈ s.store.changeList, s.pends e.slot = true ∧
    ∃ e0 ∈ s.store.changeList, e0.slot = e.slot ∧ e0.leg = .leg0
  timing : ∀ h, s.store.pendingH = some h → (∀ i : Slot, s.recordAt i = none) ∧ s.store.changeList = []

section Fits

variable {query : Bool} {s t : State} {l : List Slot} {i : Slot} {r : Record}

theorem State.tableFits_iff : s.TableFits ↔ s.TableFitsWith [] := by
  refine ⟨fun fits => ⟨fun p w hw i n owner kept => .inl (fits.windows p w hw i n owner kept), fits.staged,
    fits.timing⟩,
    fun fits => ⟨fun p w hw i n owner kept => ?_, fits.staged, fits.timing⟩⟩
  exact (fits.windows p w hw i n owner kept).resolve_right fun h => List.not_mem_nil h.2

theorem State.TableFitsWith.of_calm (fits : s.TableFitsWith l) (calm : TablesCalm s t) : t.TableFitsWith l where
  windows := fun p w hw i n owner kept => by
    rw [calm.calendar] at hw
    exact (fits.windows p w hw i n owner kept).imp (calm.stands i) fun h => ⟨calm.pends i h.1, h.2⟩
  staged := fun e he => by
    rw [calm.changeList] at he ⊢
    exact ⟨calm.pends _ (fits.staged e he).1, (fits.staged e he).2⟩
  timing := fun h pending => by
    rw [calm.pendingH] at pending
    obtain ⟨free, empty⟩ := fits.timing h pending
    exact ⟨fun i => calm.free i (free i), calm.changeList.trans empty⟩

/-- While a record is not FREE no H is pending. -/
theorem State.TableFitsWith.no_pendingH (fits : s.TableFitsWith l) (hr : s.recordAt i = some r) :
    s.store.pendingH = none := by
  cases h : s.store.pendingH with
  | none => rfl
  | some n =>
    rw [(fits.timing n h).1 i] at hr
    cases hr

theorem State.stands_of_slot {j : Slot} (h : t.slots[j] = s.slots[j]) : t.stands j = s.stands j := by
  rw [State.stands, State.recordAt, h]
  rfl

theorem State.pends_of_slot {j : Slot} (h : t.slots[j] = s.slots[j]) : t.pends j = s.pends j := by
  rw [State.pends, State.recordAt, h]
  rfl

theorem State.TableFitsWith.withEnded (fits : s.TableFitsWith l) (hr : s.recordAt i = some r)
    (standing : r.state.standing = true) (why : EndReason) : (s.withEnded i why r).TableFitsWith l where
  windows := fun p w hw j n owner kept => by
    have other : j ≠ i := by
      rintro rfl
      rw [State.withEnded_retiring s j why r p hw owner] at kept
      cases kept
    rw [State.withEnded_port] at hw
    obtain ⟨v, hv, rfl⟩ := List.mem_map.1 hw
    rw [Window.retiredFor_owner] at owner
    have kept : v.retiring = false := by
      by_contra marked
      rw [Window.retiring_retiredFor (by simpa using marked)] at kept
      cases kept
    rw [State.stands_of_slot (State.withEnded_other other), State.pends_of_slot (State.withEnded_other other)]
    exact fits.windows p v hv j n owner kept
  staged := fun e he => by
    have pends := (fits.staged e he).1
    have other : e.slot ≠ i := by
      intro same
      rw [same, State.pends_of hr] at pends
      exact RecordState.not_pending_of_standing standing (by simpa using pends)
    rw [State.pends_of_slot (State.withEnded_other other)]
    exact fits.staged e he
  timing := fun h pending => by
    rw [State.withEnded_store, fits.no_pendingH hr] at pending
    cases pending

theorem State.TableFitsWith.withdrawn (fits : s.TableFitsWith []) (hr : s.recordAt i = some r)
    (pending : r.state = .pending) : (freeRecord i (withdraw i s)).TableFitsWith [] := by
  have slot {j : Slot} (h : j ≠ i) : (freeRecord i (withdraw i s)).slots[j] = s.slots[j] :=
    freeRecord_other_slot h (withdraw i s)
  have store : (freeRecord i (withdraw i s)).store = (withdraw i s).store := by rw [freeRecord_frame]
  refine ⟨fun p w hw j n owner kept => ?_, fun e he => ?_, fun h pendingH => ?_⟩
  · rw [freeRecord_ports] at hw
    have stands := (fits.windows p w hw j n owner kept).resolve_right fun h => List.not_mem_nil h.2
    have other : j ≠ i := by
      rintro rfl
      rw [State.stands_of hr, pending] at stands
      cases stands
    rw [State.stands_of_slot (slot other)]
    exact .inl stands
  · rw [store] at he ⊢
    obtain ⟨he, apart⟩ := List.mem_filter.1 he
    have other : e.slot ≠ i := by simpa using apart
    obtain ⟨pends, e0, he0, same, first⟩ := fits.staged e he
    rw [State.pends_of_slot (slot other)]
    exact ⟨pends, e0, List.mem_filter.2 ⟨he0, by rw [same]; exact apart⟩, same, first⟩
  · rw [store] at pendingH
    have noH := fits.no_pendingH hr
    rw [show (withdraw i s).store.pendingH = s.store.pendingH from rfl, noH] at pendingH
    cases pendingH

theorem writePolicy_calendar (p q : Port) (new : Policy) (s : State) :
    ((writePolicy p new s).ports[q]).calendar = (s.ports[q]).calendar := by
  rw [writePolicy, State.modPort_get]
  split
  · next h => subst h; rfl
  · rfl

/-- A window of the calendar that the switch installs, in the planned view it installs. -/
theorem mem_calendarSwitch {p : Port} {w : Window} (hw : w ∈ ((calendarSwitch s).ports[p]).calendar) :
    ∃ v ∈ s.planned p, w = v.atPendingH s.store.pendingH :=
  have ⟨v, hv, h⟩ := List.mem_map.1 ((calendarSwitch_perm s p).mem_iff.1 hw)
  ⟨v, hv, h.symm⟩

theorem State.TableFitsWith.calendarSwitch (fits : s.TableFitsWith []) :
    (Machine.calendarSwitch s).TableFitsWith s.installingSlots := by
  have slot (j : Slot) : (Machine.calendarSwitch s).slots[j] = s.slots[j] := by rw [calendarSwitch_slots]
  have store : (Machine.calendarSwitch s).store.changeList = [] ∧ (Machine.calendarSwitch s).store.pendingH = none := by
    rw [calendarSwitch_frame]
    exact ⟨rfl, rfl⟩
  refine ⟨fun p w hw j n owner kept => ?_, fun e he => ?_, fun h pendingH => ?_⟩
  · rw [State.stands_of_slot (slot j), State.pends_of_slot (slot j)]
    obtain ⟨v, hv, rfl⟩ := mem_calendarSwitch hw
    rw [Window.atPendingH_owner] at owner
    rw [Window.atPendingH_retiring] at kept
    rcases List.mem_append.1 hv with installed | staged
    · have stands := fits.windows p v (List.mem_filter.1 installed).1 j n owner kept
      exact .inl (stands.resolve_right fun h => List.not_mem_nil h.2)
    · obtain ⟨e, he, rfl⟩ := List.mem_map.1 staged
      obtain ⟨pends, e0, he0, same, first⟩ := fits.staged e (List.mem_filter.1 he).1
      have mine : e.slot = j := by cases owner; rfl
      rw [mine] at pends same
      refine .inr ⟨pends, ?_⟩
      rw [State.installingSlots_eq, ← same]
      exact List.mem_map_of_mem (List.mem_filter.2 ⟨he0, by rw [first]; rfl⟩)
  · rw [store.1] at he
    cases he
  · rw [store.2] at pendingH
    cases pendingH

theorem State.TableFitsWith.installed (fits : s.TableFitsWith l) (hr : s.recordAt i = some r) {st : RecordState}
    (standing : st.standing = true) (empty : s.store.changeList = []) (n : Option (BitVec 32)) :
    (s.withRecord i (some { r with state := st, firstHypercycle := n })).TableFitsWith (l.filter fun j => j ≠ i) where
  windows := fun p w hw j k owner kept => by
    by_cases same : j = i
    · subst same
      rw [State.stands_of (State.withRecord_recordAt ..)]
      exact .inl standing
    · rw [State.stands_of_slot (s.withRecord_slot_ne same _), State.pends_of_slot (s.withRecord_slot_ne same _)]
      exact (fits.windows p w hw j k owner kept).imp_right fun h => ⟨h.1, List.mem_filter.2 ⟨h.2, by simpa using same⟩⟩
  staged := fun e he => by
    rw [show (s.withRecord i _).store.changeList = s.store.changeList from rfl, empty] at he
    cases he
  timing := fun h pendingH => by
    rw [show (s.withRecord i _).store.pendingH = s.store.pendingH from rfl, fits.no_pendingH hr] at pendingH
    cases pendingH

theorem State.TableFitsWith.passed (fits : s.TableFitsWith l)
    (other : ∀ r, s.recordAt i = some r → r.state ≠ .pending) :
    s.TableFitsWith (l.filter fun j => j ≠ i) where
  windows := fun p w hw j k owner kept => by
    refine (fits.windows p w hw j k owner kept).imp_right fun h => ⟨h.1, List.mem_filter.2 ⟨h.2, ?_⟩⟩
    have apart : j ≠ i := by
      rintro rfl
      obtain ⟨r, hr, pending⟩ := State.record_of_pends h.1
      exact other r hr pending
    simpa using apart
  staged := fits.staged
  timing := fits.timing

theorem Moves.tableFits {g h : Ghost} (m : Moves query g s h t) (fits : s.TableFitsWith g.toInstall) :
    t.TableFitsWith h.toInstall := by
  induction m with
  | refl => exact fits
  | trans _ _ ih ih' => exact ih' (ih fits)
  | calm h => exact fits.of_calm h.tables
  | master h => 
    have calm := h.tables
    cases h <;> exact fits.of_calm calm
  | station h =>
    have calm := h.tables
    cases h <;> exact fits.of_calm calm
  | ended hr standing why => exact fits.withEnded hr standing why
  | freed hr ending => exact fits.of_calm (freeRecord_tables hr ending)
  | withdrawn hr pending => exact fits.withdrawn hr pending
  | policy bears =>
    exact ⟨fun p w hw => fits.windows p w (by rwa [writePolicy_calendar] at hw), fits.staged, fits.timing⟩
  | timing n free empty => exact ⟨fits.windows, fits.staged, fun _ _ => ⟨free, empty⟩⟩
  | switched => exact fits.calendarSwitch
  | installed hr pending standing empty n => exact fits.installed hr standing empty n
  | passed other => exact fits.passed other

end Fits

end Sys2Proof.Machine

/-! SUPPORT. The three laws of R55 over any command (O57): under fewer windows, under another order, at the switch,
and with the windows of a grant. -/

namespace Sys2Proof.Machine

/-! ### The laws of a set of windows (R48, R55, R56) -/

section Laws

variable {cycleTicks h c : Nat} {ws vs : List Window}

theorem phasesAgree_comm (ka pa kb pb : Nat) : phasesAgree ka pa kb pb = phasesAgree kb pb ka pa := by
  rw [phasesAgree, phasesAgree, min_comm, Bool.beq_comm]

theorem collide_comm (a b : Window) : collide a b = collide b a := by
  rw [collide, collide, phasesAgree_comm, Bool.and_comm (decide (a.offset < _))]

theorem loadOf_append (ws vs : List Window) (b : Nat) : loadOf (ws ++ vs) b = loadOf ws b + loadOf vs b := by
  simp [loadOf]

theorem loadOf_singleton_le (w : Window) (b : Nat) : loadOf [w] b ≤ w.length := by
  unfold loadOf
  cases h : w.reserves && w.inBaseCycle b <;> simp [h]

theorem ViewLawful.sublist (lawful : ViewLawful cycleTicks h c ws) (sub : vs.Sublist ws) :
    ViewLawful cycleTicks h c vs where
  apart := lawful.apart.sublist sub
  within_cap := fun b hb => ((sub.filter _).map _).sum_le_sum (fun _ _ => Nat.zero_le _) |>.trans
    (lawful.within_cap b hb)
  on_grain := fun w hw => lawful.on_grain w (sub.subset hw)
  room := (sub.filter _).length_le.trans lawful.room

theorem ViewLawful.perm (lawful : ViewLawful cycleTicks h c ws) (perm : vs.Perm ws) : ViewLawful cycleTicks h c vs where
  apart := (perm.pairwise_iff fun ab => (collide_comm ..).trans ab).2 lawful.apart
  within_cap := fun b hb => (((perm.filter _).map _).sum_eq).trans_le (lawful.within_cap b hb)
  on_grain := fun w hw => lawful.on_grain w (perm.mem_iff.1 hw)
  room := (perm.filter _).length_eq.trans_le lawful.room

/-- The laws speak of neither retiring marks. -/
theorem ViewLawful.retired (lawful : ViewLawful cycleTicks h c ws) (i : Slot) :
    ViewLawful cycleTicks h c (ws.map (Window.retiredFor i)) := by
  have offset (w : Window) : (w.retiredFor i).offset = w.offset := by unfold Window.retiredFor; split <;> rfl
  have length (w : Window) : (w.retiredFor i).length = w.length := by unfold Window.retiredFor; split <;> rfl
  have rate (w : Window) : (w.retiredFor i).rate = w.rate := by unfold Window.retiredFor; split <;> rfl
  have phase (w : Window) : (w.retiredFor i).phase = w.phase := by unfold Window.retiredFor; split <;> rfl
  refine ⟨List.pairwise_map.2 (lawful.apart.imp fun ab => ?_), fun b hb => ?_, fun w hw => ?_, ?_⟩
  · simpa only [collide, offset, length, rate, phase] using ab
  · have load : loadOf (ws.map (Window.retiredFor i)) b = loadOf ws b := by
      have occupies : (fun w : Window => w.reserves && w.inBaseCycle b) ∘ Window.retiredFor i =
          fun w => w.reserves && w.inBaseCycle b := by
        funext w
        simp only [Function.comp, Window.retiredFor_reserves, Window.inBaseCycle, rate, phase]
      rw [loadOf, List.filter_map, occupies, List.map_map, loadOf]
      exact congrArg List.sum (List.map_congr_left fun w _ => length w)
    exact load.trans_le (lawful.within_cap b hb)
  · obtain ⟨v, hv, rfl⟩ := List.mem_map.1 hw
    rw [offset, length]
    exact lawful.on_grain v hv
  · have same : Window.reserves ∘ Window.retiredFor i = Window.reserves := funext (Window.retiredFor_reserves i)
    rw [List.filter_map, same, List.length_map]
    exact lawful.room

/-- One window more, where it fits (R83). -/
theorem ViewLawful.add (lawful : ViewLawful cycleTicks h c ws) {w : Window}
    (clear : ∀ v ∈ ws, collide v w = false) (loads : ∀ b < 2 ^ h, w.inBaseCycle b = true → loadOf ws b + w.length ≤ c)
    (grain : w.offset % 16 = 0 ∧ w.length % 16 = 0 ∧ w.offset + w.length ≤ cycleTicks)
    (room : (ws.filter Window.reserves).length < 32) : ViewLawful cycleTicks h c (ws ++ [w]) where
  apart := List.pairwise_append.2 ⟨lawful.apart, List.pairwise_singleton .., fun v hv x hx => by
    rw [List.mem_singleton.1 hx]
    exact clear v hv⟩
  within_cap := fun b hb => by
    rw [loadOf_append]
    cases occupies : w.inBaseCycle b with
    | true => exact (Nat.add_le_add_left (loadOf_singleton_le ..) _).trans (loads b hb occupies)
    | false => simpa [loadOf, occupies] using lawful.within_cap b hb
  on_grain := fun v hv => (List.mem_append.1 hv).elim (lawful.on_grain v) fun hv => by
    rw [List.mem_singleton.1 hv]
    exact grain
  room := by
    rw [List.filter_append, List.length_append]
    exact (Nat.add_le_add_left (List.length_filter_le ..) _).trans room

theorem beaconWindow_lawful (cyc : Fin 4) (h c k : Nat) : ViewLawful (baseCycleTicks cyc) h c [beaconWindow k] where
  apart := List.pairwise_singleton ..
  within_cap := fun b _ => Nat.zero_le c
  on_grain := fun w hw => by
    have short : beaconWindowLength ≤ baseCycleTicks cyc := by revert cyc; decide
    rw [List.mem_singleton.1 hw]
    exact ⟨rfl, show beaconWindowLength % 16 = 0 by decide, by rwa [beaconWindow, Nat.zero_add]⟩
  room := Nat.zero_le 32

end Laws

/-! ### The laws over any command -/

section Views

variable {query : Bool} {s t : State} {l : List Slot} {i : Slot} {r : Record}

theorem State.ViewsLawful.of_calendars (lawful : s.ViewsLawful)
    (calendar : ∀ q : Port, (t.ports[q]).calendar = (s.ports[q]).calendar)
    (policy : ∀ q : Port, (t.ports[q]).policy = (s.ports[q]).policy)
    (changeList : t.store.changeList = s.store.changeList) (straps : t.straps = s.straps)
    (hExp : t.time.hExp = s.time.hExp) : t.ViewsLawful := by
  have ticks : t.cycleTicks = s.cycleTicks := by rw [State.cycleTicks, straps]; rfl
  have cap (p : Port) : t.cap p = s.cap p := by rw [State.cap, State.cap, ticks, policy]
  have planned (p : Port) : t.planned p = s.planned p := by
    rw [State.planned, State.planned, State.stagedFor, State.stagedFor, calendar, changeList]
  refine ⟨fun p => ?_, fun p => ?_⟩
  · rw [ticks, hExp, cap, calendar]
    exact lawful.installed p
  · rw [ticks, hExp, cap, planned]
    exact lawful.planned p

theorem State.ViewsLawful.of_calm (lawful : s.ViewsLawful) (calm : TablesCalm s t) : t.ViewsLawful :=
  lawful.of_calendars calm.calendar calm.policy calm.changeList calm.straps calm.hExp

theorem State.ViewsLawful.withEnded (lawful : s.ViewsLawful) (why : EndReason) : (s.withEnded i why r).ViewsLawful := by
  have cap (p : Port) : (s.withEnded i why r).cap p = s.cap p := by
    rw [State.cap, State.withEnded_port]
    rfl
  refine ⟨fun p => ?_, fun p => ?_⟩
  · rw [cap, State.withEnded_port]
    exact (lawful.installed p).retired i
  · rw [cap, State.planned, State.withEnded_port]
    exact (lawful.planned p).sublist ((filter_retiredFor ..).append (List.Sublist.refl _))

theorem State.ViewsLawful.withdrawn (lawful : s.ViewsLawful) (i : Slot) :
    (freeRecord i (withdraw i s)).ViewsLawful := by
  have ports : (freeRecord i (withdraw i s)).ports = s.ports := freeRecord_ports i (withdraw i s)
  have frame : (freeRecord i (withdraw i s)).straps = s.straps ∧ (freeRecord i (withdraw i s)).time = s.time ∧
      (freeRecord i (withdraw i s)).store.changeList = s.store.changeList.filter fun e => e.slot != i := by
    rw [freeRecord_frame]
    exact ⟨rfl, rfl, rfl⟩
  obtain ⟨straps, time, staged⟩ := frame
  have ticks : (freeRecord i (withdraw i s)).cycleTicks = s.cycleTicks := by rw [State.cycleTicks, straps]; rfl
  have cap (p : Port) : (freeRecord i (withdraw i s)).cap p = s.cap p := by rw [State.cap, State.cap, ticks, ports]
  refine ⟨fun p => ?_, fun p => ?_⟩
  · rw [ticks, time, cap, ports]
    exact lawful.installed p
  · rw [ticks, time, cap, State.planned, State.stagedFor, ports, staged]
    exact (lawful.planned p).sublist ((List.Sublist.refl _).append ((List.filter_sublist.filter _).map _))

/-- A policy whose cap bears the peak load bears every load of both views (R53, R180). -/
theorem State.ViewsLawful.writePolicy (lawful : s.ViewsLawful) {p : Port} {new : Policy}
    (bears : s.peakLoad p ≤ capOf s.cycleTicks new.share) : (Machine.writePolicy p new s).ViewsLawful := by
  have calendar (q : Port) := writePolicy_calendar p q new s
  have planned (q : Port) : (Machine.writePolicy p new s).planned q = s.planned q := by
    rw [State.planned, State.planned, calendar]
    rfl
  have same {q : Port} (other : q ≠ p) : (Machine.writePolicy p new s).cap q = s.cap q := by
    rw [State.cap, Machine.writePolicy, State.modPort_get_ne _ _ _ _ other]
    rfl
  have written : (Machine.writePolicy p new s).cap p = capOf s.cycleTicks new.share := by
    rw [State.cap, Machine.writePolicy, State.modPort_get_self]
    rfl
  refine ⟨fun q => ?_, fun q => ?_⟩
  all_goals
    by_cases here : q = p
  · subst here
    rw [written, calendar]
    exact { lawful.installed q with
      within_cap := fun b hb => ((s.load_le_peakLoad q hb).2).trans bears }
  · rw [same here, calendar]
    exact lawful.installed q
  · subst here
    rw [written, planned]
    exact { lawful.planned q with
      within_cap := fun b hb => ((s.load_le_peakLoad q hb).1).trans bears }
  · rw [same here, planned]
    exact lawful.planned q

/-- The calendar that the switch leaves: the planned view in another order, or, when an H is pending, the beacon window
alone, since no record is left to own another (R61, R69). -/
theorem calendarSwitch_calendar (sound : s.CalendarsSound) (fits : s.TableFitsWith []) (p : Port) :
    (s.store.pendingH = none ∧ ((calendarSwitch s).ports[p]).calendar.Perm (s.planned p)) ∨
      ((calendarSwitch s).ports[p]).calendar = [beaconWindow s.switchH] := by
  have perm := calendarSwitch_perm s p
  cases pendingH : s.store.pendingH with
  | none =>
    rw [pendingH, show Window.atPendingH none = id from rfl, List.map_id] at perm
    exact .inl ⟨rfl, perm⟩
  | some h =>
    obtain ⟨free, empty⟩ := fits.timing h pendingH
    have after := fits.calendarSwitch
    have beacons : ∀ w ∈ ((calendarSwitch s).ports[p]).calendar, (!w.reserves) = true := by
      intro w hw
      obtain ⟨v, hv, rfl⟩ := mem_calendarSwitch hw
      have owner : v.owner = .beacon := by
        rw [State.planned, State.stagedFor, empty] at hv
        obtain ⟨hv, kept⟩ := List.mem_filter.1 ((List.mem_append.1 hv).resolve_right List.not_mem_nil)
        cases ho : v.owner with
        | beacon => rfl
        | leg j n =>
          have stands := fits.windows p v hv j n ho (by simpa using kept)
          rw [State.stands_of_free (free j), State.pends_of_free (free j)] at stands
          simp at stands
      simp [Window.reserves, owner]
    have only := (sound.calendarSwitch).beacon p
    rw [List.filter_eq_self.2 beacons, calendarSwitch_hExp] at only
    exact .inr only

theorem calendarSwitch_planned (s : State) (p : Port) :
    (calendarSwitch s).planned p = ((calendarSwitch s).ports[p]).calendar.filter fun w => !w.retiring := by
  have empty : (calendarSwitch s).store.changeList = [] := by rw [calendarSwitch_frame]
  rw [State.planned, State.stagedFor, empty]
  exact List.append_nil _

theorem State.ViewsLawful.calendarSwitch (lawful : s.ViewsLawful) (sound : s.CalendarsSound)
    (fits : s.TableFitsWith []) : (Machine.calendarSwitch s).ViewsLawful := by
  have ticks : (Machine.calendarSwitch s).cycleTicks = s.cycleTicks := by
    rw [State.cycleTicks, calendarSwitch_frame]
    rfl
  have cap (p : Port) : (Machine.calendarSwitch s).cap p = s.cap p := by
    rw [State.cap, ticks, calendarSwitch_port]
    rfl
  have installed (p : Port) : ViewLawful s.cycleTicks s.switchH (s.cap p)
      ((Machine.calendarSwitch s).ports[p]).calendar := by
    rcases calendarSwitch_calendar sound fits p with ⟨noH, perm⟩ | only
    · have same : s.switchH = s.time.hExp := by rw [State.switchH, noH]; rfl
      rw [same]
      exact (lawful.planned p).perm perm
    · rw [only]
      exact beaconWindow_lawful ..
  refine ⟨fun p => ?_, fun p => ?_⟩
  · rw [ticks, calendarSwitch_hExp, cap]
    exact installed p
  · rw [ticks, calendarSwitch_hExp, cap, calendarSwitch_planned]
    exact (installed p).sublist List.filter_sublist

theorem Moves.viewsLawful {g h : Ghost} (m : Moves query g s h t) (sound : s.CalendarsSound)
    (fits : s.TableFitsWith g.toInstall) (lawful : s.ViewsLawful) : t.ViewsLawful := by
  induction m with
  | refl => exact lawful
  | trans m _ ih ih' => exact ih' (m.calendarsSound sound) (m.tableFits fits) (ih sound fits lawful)
  | calm h => exact lawful.of_calm h.tables
  | master h => exact lawful.of_calm h.tables
  | station h => exact lawful.of_calm h.tables
  | ended hr standing why => exact lawful.withEnded why
  | freed hr ending => exact lawful.of_calm (freeRecord_tables hr ending)
  | withdrawn hr pending => exact lawful.withdrawn _
  | policy bears => exact lawful.writePolicy bears
  | timing n free empty => exact lawful.of_calendars (fun _ => rfl) (fun _ => rfl) rfl rfl rfl
  | switched => exact lawful.calendarSwitch sound fits
  | installed hr pending standing empty n => exact lawful.of_calendars (fun _ => rfl) (fun _ => rfl) rfl rfl rfl
  | passed other => exact lawful

end Views

/-! ### The grant and the release of RESET -/

section Grant

variable {s t v : State} {rq : Request} {c : ClaimFields} {i : Slot} {l0 : LegPlan} {ret : Option LegPlan}
  {place : Placement}

theorem State.TableFitsWith.withGrant {r : Record} (fits : v.TableFitsWith []) (free : v.recordAt i = none)
    (pending : r.state = .pending) (noH : v.store.pendingH = none) : (v.withGrant i r).TableFitsWith [] := by
  have entered : (v.withGrant i r).recordAt i = some r :=
    congrArg SlotCell.record (v.modSlot_get_self i fun c => { c with record := some r, queue0 := [], queue1 := [] })
  refine ⟨fun p w hw j n owner kept => ?_, fun e he => ?_, fun h pendingH => ?_⟩
  · have stands := (fits.windows p w hw j n owner kept).resolve_right fun h => List.not_mem_nil h.2
    have other : j ≠ i := by
      rintro rfl
      rw [State.stands_of_free free] at stands
      cases stands
    rw [State.stands_of_slot (v.withGrant_other_slot other r)]
    exact .inl stands
  · rcases List.mem_append.1 he with before | new
    · obtain ⟨pends, e0, he0, same, first⟩ := fits.staged e before
      have other : e.slot ≠ i := by
        intro same
        rw [same, State.pends_of_free free] at pends
        cases pends
      rw [State.pends_of_slot (v.withGrant_other_slot other r)]
      exact ⟨pends, e0, List.mem_append_left _ he0, same, first⟩
    · have mine : e.slot = i := by
        rcases List.mem_cons.1 new with rfl | second
        · rfl
        · rw [Option.mem_toList, Option.map_eq_some_iff] at second
          obtain ⟨l, _, rfl⟩ := second
          rfl
      rw [mine, State.pends_of entered, pending]
      exact ⟨rfl, _, List.mem_append_right _ List.mem_cons_self, rfl, rfl⟩
  · rw [show (v.withGrant i r).store.pendingH = v.store.pendingH from rfl, noH] at pendingH
    cases pendingH

/-- What fits into the planned views fits into fewer windows. -/
theorem Shrunk.fits (shrunk : Shrunk s v) {l : LegPlan} {k ph o : Nat} {n : LegNo} (h : s.Fits l k ph i n o) :
    v.Fits l k ph i n o := by
  obtain ⟨grain, lengths, inside, clear, loads, room⟩ := h
  have planned := shrunk.planned l.egress
  have ticks : v.cycleTicks = s.cycleTicks := by rw [State.cycleTicks, shrunk.straps]; rfl
  refine ⟨grain, lengths, by rw [ticks]; exact inside, fun w hw => clear w (planned.subset hw), fun b hb meets => ?_,
    ((planned.filter _).length_le).trans_lt room⟩
  rw [shrunk.hExp] at hb
  rw [ticks, shrunk.policy]
  refine (Nat.add_le_add_right ?_ _).trans (loads b hb meets)
  exact ((planned.filter _).map _).sum_le_sum fun _ _ => Nat.zero_le _

theorem ViewLawful.withLeg {l : LegPlan} {k ph o : Nat} {n : LegNo}
    (lawful : ViewLawful v.cycleTicks v.time.hExp (v.cap l.egress) (v.planned l.egress)) (h : v.Fits l k ph i n o) :
    ViewLawful v.cycleTicks v.time.hExp (v.cap l.egress) (v.planned l.egress ++
      [{ offset := o, length := l.length, rate := k, phase := ph, owner := .leg i n, retiring := false }]) := by
  obtain ⟨grain, lengths, inside, clear, loads, room⟩ := h
  refine lawful.add clear (fun b hb meets => loads b hb ?_) ⟨grain, lengths, inside⟩ room
  simpa [Window.inBaseCycle, occupies] using meets

/-- The windows that a record's legs add to the planned view of port `p`. -/
theorem State.withGrant_planned (v : State) (i : Slot) (r : Record) (p : Port) :
    (v.withGrant i r).planned p =
      v.planned p ++ ((stagedLegsOf i r).filter fun e => e.egress == p).map StagedLeg.window := by
  rw [State.planned, State.planned, State.stagedFor, State.stagedFor,
    show (v.withGrant i r).store.changeList = v.store.changeList ++ stagedLegsOf i r from rfl, List.filter_append,
    List.map_append, ← List.append_assoc]
  rfl

/-- The planned views of a grant: its forward leg on one port, its return leg, if any, on another. -/
theorem State.Granted.planned (granted : s.Granted rq c i l0 ret place) (v : State) (p : Port) :
    let window (l : LegPlan) (n : LegNo) (o : Nat) : Window :=
      { offset := o, length := l.length, rate := c.rate, phase := place.phase, owner := .leg i n, retiring := false }
    (p = l0.egress ∧ (v.withGrant i (grantedRecord rq c l0 ret place)).planned p =
        v.planned p ++ [window l0 .leg0 place.offset0]) ∨
      (∃ l1, ret = some l1 ∧ p = l1.egress ∧ (v.withGrant i (grantedRecord rq c l0 ret place)).planned p =
        v.planned p ++ [window l1 .leg1 (place.offset1.getD 0)]) ∨
      (v.withGrant i (grantedRecord rq c l0 ret place)).planned p = v.planned p := by
  intro window
  have legs : stagedLegsOf i (grantedRecord rq c l0 ret place) =
      stagedLegOf i (grantedRecord rq c l0 ret place) .leg0 (grantedLegOf rq.port l0 c.frames0 c.size0 place.offset0) ::
        (ret.map fun l => stagedLegOf i (grantedRecord rq c l0 ret place) .leg1
          (grantedLegOf l0.egress l c.frames1 c.size1 (place.offset1.getD 0))).toList := by
    rw [stagedLegsOf]
    cases ret <;> rfl
  rw [State.withGrant_planned, legs, List.filter_cons]
  cases ret with
  | none =>
    by_cases forward : l0.egress = p
    · refine .inl ⟨forward.symm, ?_⟩
      simp only [stagedLegOf, grantedLegOf, forward, beq_self_eq_true, if_true, Option.map_none, Option.toList_none]
      rfl
    · refine .inr (.inr ?_)
      simp [stagedLegOf, grantedLegOf, forward]
  | some l1 =>
    obtain ⟨sp1, _, plan1⟩ := granted.backward l1 rfl
    have port : l1.egress = rq.port := by rw [plan1]; rfl
    by_cases forward : l0.egress = p
    · refine .inl ⟨forward.symm, ?_⟩
      have other : ¬l1.egress = p := by rw [port, ← forward]; exact granted.otherPort.symm
      simp [stagedLegOf, grantedLegOf, forward, other, StagedLeg.window, grantedRecord, window]
    · by_cases back : l1.egress = p
      · refine .inr (.inl ⟨l1, rfl, back.symm, ?_⟩)
        simp [stagedLegOf, grantedLegOf, forward, back, StagedLeg.window, grantedRecord, window]
      · refine .inr (.inr ?_)
        simp [stagedLegOf, grantedLegOf, forward, back]

/-- A grant keeps the laws: each of its windows lies where it fits. -/
theorem State.ViewsLawful.withGrant (granted : s.Granted rq c i l0 ret place) (shrunk : Shrunk s v)
    (lawful : v.ViewsLawful) : (v.withGrant i (grantedRecord rq c l0 ret place)).ViewsLawful := by
  refine ⟨lawful.installed, fun p => ?_⟩
  show ViewLawful v.cycleTicks v.time.hExp (v.cap p) _
  obtain ⟨_, candidate, _⟩ := granted.candidates
  obtain ⟨sp0, _, plan0⟩ := granted.forward
  rcases granted.planned v p with ⟨rfl, added⟩ | ⟨l1, hl, rfl, added⟩ | same
  · rw [added]
    exact ViewLawful.withLeg (lawful.planned _) (shrunk.fits (State.fits_of_candidate i .leg0 plan0 candidate))
  · obtain ⟨o1, offset, _, candidate1, _⟩ := granted.back_candidate hl
    obtain ⟨sp1, _, plan1⟩ := granted.backward l1 hl
    rw [added, offset]
    exact ViewLawful.withLeg (lawful.planned _) (shrunk.fits (State.fits_of_candidate i .leg1 plan1 candidate1))
  · rw [same]
    exact lawful.planned p

/-- Calendars, change list and reservation table, with the switch at most half done. -/
structure State.TablesLawful (l : List Slot) (s : State) : Prop where
  calendars : s.CalendarsSound
  table : s.TableFitsWith l
  views : s.ViewsLawful

theorem Moves.tablesLawful {query : Bool} {g h : Ghost} (m : Moves query g s h t)
    (lawful : s.TablesLawful g.toInstall) : t.TablesLawful h.toInstall :=
  ⟨m.calendarsSound lawful.calendars, m.tableFits lawful.table,
    m.viewsLawful lawful.calendars lawful.table lawful.views⟩

theorem Grants.tablesLawful (grants : Grants s t) (lawful : s.TablesLawful []) : t.TablesLawful [] := by
  have sound := grants.calendarsSound lawful.calendars
  cases grants with
  | @intro rq c i l0 ret place v granted pins shrunk =>
    have after := (pins true).tablesLawful lawful
    have free := shrunk.free i (State.freeSlot_eq.1 granted.slot).1
    exact ⟨sound, after.table.withGrant free rfl (shrunk.pendingH.trans granted.noPendingH),
      after.views.withGrant granted shrunk⟩

theorem resetWith_planned (straps : Straps) (lines : Vector PhyLines 8) (pending : List Instr) (p : Port) :
    (State.resetWith straps lines pending).planned p = [beaconWindow 3] := by
  rw [State.planned, resetWith_port]
  rfl

theorem resetWith_tableFits (straps : Straps) (lines : Vector PhyLines 8) (pending : List Instr) :
    (State.resetWith straps lines pending).TableFitsWith [] where
  windows := fun p w hw i n owner _ => by
    rw [resetWith_port] at hw
    rw [List.mem_singleton.1 hw] at owner
    cases owner
  staged := nofun
  timing := nofun

theorem resetWith_viewsLawful (straps : Straps) (lines : Vector PhyLines 8) (pending : List Instr) :
    (State.resetWith straps lines pending).ViewsLawful where
  installed := fun p => by
    rw [resetWith_port]
    exact beaconWindow_lawful ..
  planned := fun p => by
    rw [resetWith_planned]
    exact beaconWindow_lawful ..

end Grant

/-- Settles O57: every move keeps the fit and the laws, and a grant adds windows where they fit. -/
theorem calendarLawsStayKept : Obligations.CalendarLawsStayKept := by
  intro s t sound fits views h
  have lawful := step_keeps (Inv := fun g s => s.TablesLawful g.toInstall) Moves.tablesLawful Grants.tablesLawful
    (fun straps lines pending =>
      ⟨resetWith_calendarsSound .., resetWith_tableFits .., resetWith_viewsLawful straps lines pending⟩) h
    ⟨sound, State.tableFits_iff.1 fits, views⟩
  exact ⟨State.tableFits_iff.2 lawful.table, lawful.views⟩

end Sys2Proof.Machine

/-! SUPPORT. The places of the queues over any command (O58): hold queues, open queues, non-reply places, change list.
-/

namespace Sys2Proof.Machine

section Queues

variable {query : Bool} {s t : State} {i : Slot} {r : Record}

/-- The queues of a port with the same frames in the same places. -/
theorem PortState.nonReplies_congr {ps ps' : PortState} (tx : ps'.tx = ps.tx)
    (control : ps'.controlQueue = ps.controlQueue) : ps'.nonReplies = ps.nonReplies := by
  rw [PortState.nonReplies, PortState.nonReplies, tx, control]

/-- Queues that do not outgrow their places. -/
theorem State.QueuesBounded.of_queues (bounded : s.QueuesBounded)
    (hold : ∀ i : Slot, ((t.slots[i]).queue0.length ≤ (s.slots[i]).queue0.length ∨ (t.slots[i]).queue0.length ≤ 4) ∧
      ((t.slots[i]).queue1.length ≤ (s.slots[i]).queue1.length ∨ (t.slots[i]).queue1.length ≤ 4))
    (openFrames : ∀ p : Port, (t.ports[p]).openQueue.Sublist (s.ports[p]).openQueue ∨
      ((t.ports[p]).openQueue.length ≤ 64 ∧ bytesIn (t.ports[p]).openQueue ≤ 32768))
    (nonReplies : ∀ p : Port, (t.ports[p]).nonReplies ≤ (s.ports[p]).nonReplies ∨ (t.ports[p]).nonReplies ≤ 8)
    (changeList : t.store.changeList.length ≤ s.store.changeList.length) : t.QueuesBounded where
  hold := fun i => ⟨(hold i).1.elim (·.trans (bounded.hold i).1) id, (hold i).2.elim (·.trans (bounded.hold i).2) id⟩
  openFrames := fun p => (openFrames p).elim
    (fun sub => ⟨sub.length_le.trans (bounded.openFrames p).1,
      ((sub.map _).sum_le_sum fun _ _ => Nat.zero_le _).trans (bounded.openFrames p).2⟩) id
  nonReplies := fun p => (nonReplies p).elim (·.trans (bounded.nonReplies p)) id
  changeList := changeList.trans bounded.changeList

/-- The hold queues are emptied in one slot. -/
theorem State.QueuesBounded.of_slot (bounded : s.QueuesBounded) (other : ∀ j : Slot, j ≠ i → t.slots[j] = s.slots[j])
    (empty : (t.slots[i]).queue0 = [] ∧ (t.slots[i]).queue1 = [])
    (openFrames : ∀ p : Port, (t.ports[p]).openQueue = (s.ports[p]).openQueue)
    (nonReplies : ∀ p : Port, (t.ports[p]).nonReplies = (s.ports[p]).nonReplies)
    (changeList : t.store.changeList.length ≤ s.store.changeList.length) : t.QueuesBounded := by
  refine bounded.of_queues (fun j => ?_) (fun p => .inl (openFrames p ▸ .refl _)) (fun p => .inl (nonReplies p).le)
    changeList
  by_cases same : j = i
  · subst same
    rw [empty.1, empty.2]
    exact ⟨.inr (Nat.zero_le 4), .inr (Nat.zero_le 4)⟩
  · rw [other j same]
    exact ⟨.inl le_rfl, .inl le_rfl⟩

theorem State.QueuesBounded.of_tables (bounded : s.QueuesBounded)
    (hold : ∀ i : Slot, (t.slots[i]).queue0 = (s.slots[i]).queue0 ∧ (t.slots[i]).queue1 = (s.slots[i]).queue1)
    (openFrames : ∀ p : Port, (t.ports[p]).openQueue = (s.ports[p]).openQueue)
    (nonReplies : ∀ p : Port, (t.ports[p]).nonReplies = (s.ports[p]).nonReplies)
    (changeList : t.store.changeList.length ≤ s.store.changeList.length) : t.QueuesBounded :=
  bounded.of_queues (fun i => by rw [(hold i).1, (hold i).2]; exact ⟨.inl le_rfl, .inl le_rfl⟩)
    (fun p => .inl (openFrames p ▸ .refl _)) (fun p => .inl (nonReplies p).le) changeList

theorem State.QueuesBounded.freeRecord (bounded : s.QueuesBounded) (hr : s.recordAt i = some r) :
    (Machine.freeRecord i s).QueuesBounded := by
  refine bounded.of_slot (i := i) (fun _ h => freeRecord_other_slot h s) ?_ (fun p => by rw [freeRecord_ports])
    (fun p => by rw [freeRecord_ports]) (by rw [freeRecord_frame])
  rw [freeRecord_slot hr]
  exact ⟨rfl, rfl⟩

theorem Moves.queuesBounded {g h : Ghost} (m : Moves query g s h t) (bounded : s.QueuesBounded) : t.QueuesBounded := by
  induction m with
  | refl => exact bounded
  | trans _ _ ih ih' => exact ih' (ih bounded)
  | calm h =>
    exact bounded.of_queues (fun i => ⟨(h.slots i).queue0, (h.slots i).queue1⟩) (fun p => (h.ports p).openQueue)
      (fun p => (h.ports p).nonReplies) (by rw [h.changeList])
  | master h =>
    have kept := h.kept
    exact bounded.of_tables (fun i => by rw [kept.slots]; exact ⟨rfl, rfl⟩) kept.openQueue kept.nonReplies
      (by rw [kept.store])
  | station h =>
    rw [h.frame]
    exact bounded.of_tables (fun _ => ⟨rfl, rfl⟩) (fun _ => rfl) (fun _ => rfl) le_rfl
  | @ended g s i r hr standing why =>
    refine bounded.of_slot (i := i) (fun _ other => State.withEnded_other other) ?_ (fun p => ?_) (fun p => ?_) le_rfl
    · rw [State.withEnded_slot]
      exact ⟨rfl, rfl⟩
    · rw [State.withEnded_port]
    · rw [State.withEnded_port]
      exact PortState.nonReplies_congr rfl rfl
  | freed hr ending => exact bounded.freeRecord hr
  | @withdrawn h a s i r hr pending =>
    have shorter : (withdraw i s).QueuesBounded :=
      bounded.of_tables (fun _ => ⟨rfl, rfl⟩) (fun _ => rfl) (fun _ => rfl) (List.length_filter_le ..)
    exact shorter.freeRecord (s := withdraw i s) hr
  | @policy g s p new bears =>
    have port (q : Port) : ((writePolicy p new s).ports[q]).openQueue = (s.ports[q]).openQueue ∧
        ((writePolicy p new s).ports[q]).nonReplies = (s.ports[q]).nonReplies := by
      rw [writePolicy, State.modPort_get]
      split
      · next h => subst h; exact ⟨rfl, PortState.nonReplies_congr rfl rfl⟩
      · exact ⟨rfl, rfl⟩
    exact bounded.of_tables (fun _ => ⟨rfl, rfl⟩) (fun q => (port q).1) (fun q => (port q).2) le_rfl
  | timing => exact bounded.of_tables (fun _ => ⟨rfl, rfl⟩) (fun _ => rfl) (fun _ => rfl) le_rfl
  | @switched h a s =>
    refine bounded.of_tables (fun i => by rw [calendarSwitch_slots]; exact ⟨rfl, rfl⟩) (fun p => ?_) (fun p => ?_) ?_
    · rw [calendarSwitch_port]
    · rw [calendarSwitch_port]
      exact PortState.nonReplies_congr rfl rfl
    · rw [calendarSwitch_frame]
      exact Nat.zero_le _
  | @installed h l a s i r st hr pending standing empty n =>
    refine bounded.of_tables (fun j => ?_) (fun _ => rfl) (fun _ => rfl) le_rfl
    by_cases same : j = i
    · subst same
      rw [s.withRecord_slot_self]
      exact ⟨rfl, rfl⟩
    · rw [s.withRecord_slot_ne same]
      exact ⟨rfl, rfl⟩
  | passed => exact bounded

theorem stagedLegsOf_length {rq : Request} {c : ClaimFields} {l0 : LegPlan} {ret : Option LegPlan} {place : Placement}
    (back : ret.isSome = c.returnLeg) : (stagedLegsOf i (grantedRecord rq c l0 ret place)).length = c.legCount := by
  unfold ClaimFields.legCount
  rw [← back]
  cases ret <;> rfl

theorem Grants.queuesBounded (grants : Grants s t) (bounded : s.QueuesBounded) : t.QueuesBounded := by
  cases grants with
  | @intro rq c i l0 ret place v granted pins shrunk =>
    have after := (pins true).queuesBounded bounded
    have entered : (v.withGrant i (grantedRecord rq c l0 ret place)).slots[i] =
        { v.slots[i] with record := some (grantedRecord rq c l0 ret place), queue0 := [], queue1 := [] } :=
      v.modSlot_get_self i fun cell =>
        { cell with record := some (grantedRecord rq c l0 ret place), queue0 := [], queue1 := [] }
    refine
      { hold := fun j => ?_, openFrames := after.openFrames, nonReplies := after.nonReplies, changeList := ?_ }
    · by_cases same : j = i
      · subst same
        rw [entered]
        exact ⟨Nat.zero_le 4, Nat.zero_le 4⟩
      · rw [v.withGrant_other_slot same]
        exact after.hold j
    · show (v.store.changeList ++ stagedLegsOf i (grantedRecord rq c l0 ret place)).length ≤ 16
      have fewer := shrunk.changeList.length_le
      have places : c.legCount ≤ 16 - s.store.changeList.length := granted.places
      have before := bounded.changeList
      rw [List.length_append, stagedLegsOf_length granted.back]
      omega

theorem resetWith_queuesBounded (straps : Straps) (lines : Vector PhyLines 8) (pending : List Instr) :
    (State.resetWith straps lines pending).QueuesBounded where
  hold := fun i => by
    rw [resetWith_slot]
    exact ⟨Nat.zero_le 4, Nat.zero_le 4⟩
  openFrames := fun p => by
    rw [resetWith_port]
    exact ⟨Nat.zero_le 64, Nat.zero_le 32768⟩
  nonReplies := fun p => by
    rw [resetWith_port]
    exact Nat.zero_le 8
  changeList := Nat.zero_le 16

end Queues

end Sys2Proof.Machine

/-! SUPPORT. Held counts and queued requests over any command (O59): the number of records a master owns, and the
requests that are not yet answered, in the queue or in the unit's hand. -/

namespace Sys2Proof.Machine

/-! ### Counts over the slots -/

/-- One slot more for which `g` holds. -/
theorem length_filter_finRange_of_one {n : Nat} {f g : Fin n → Bool} {i : Fin n} (off : f i = false)
    (other : ∀ j, j ≠ i → g j = f j) :
    ((List.finRange n).filter g).length = ((List.finRange n).filter f).length + (g i).toNat := by
  obtain ⟨before, after, split⟩ := List.append_of_mem (List.mem_finRange i)
  have nodup := List.nodup_finRange n
  rw [split] at nodup ⊢
  have apart : ∀ j ∈ before ++ after, j ≠ i := by
    rintro j hj rfl
    exact (List.nodup_cons.1 (List.nodup_middle.1 nodup)).1 hj
  have first : before.filter g = before.filter f :=
    List.filter_congr fun j hj => other j (apart j (List.mem_append_left _ hj))
  have second : after.filter g = after.filter f :=
    List.filter_congr fun j hj => other j (apart j (List.mem_append_right _ hj))
  rw [List.filter_append, List.filter_append, List.filter_cons, List.filter_cons, first, second, off]
  cases g i with
  | true => simp; omega
  | false => simp

/-- The number of non-FREE records for which `f` holds. -/
theorem State.countRecords_congr {s t : State} {f : Record → Bool}
    (h : ∀ i : Slot, (t.recordAt i).any f = (s.recordAt i).any f) : t.countRecords f = s.countRecords f := by
  simp only [State.countRecords, h]

/-- A record that is entered in a FREE slot counts once. -/
theorem State.countRecords_entered {s t : State} {i : Slot} {r : Record} (free : s.recordAt i = none)
    (entered : t.recordAt i = some r) (other : ∀ j : Slot, j ≠ i → t.recordAt j = s.recordAt j) (f : Record → Bool) :
    t.countRecords f = s.countRecords f + (f r).toNat := by
  have count := length_filter_finRange_of_one (f := fun j : Slot => (s.recordAt j).any f)
    (g := fun j : Slot => (t.recordAt j).any f) (i := i) (by rw [free]; rfl) fun j h => by rw [other j h]
  rw [entered] at count
  exact count

theorem State.ownedBy_eq (s : State) (m : MasterIndex) : s.ownedBy m = s.countRecords fun r => r.owner == m := rfl

/-- A non-FREE record counts. -/
theorem State.countRecords_pos {s : State} {i : Slot} {r : Record} (hr : s.recordAt i = some r) {f : Record → Bool}
    (hf : f r = true) : 0 < s.countRecords f := by
  refine List.length_pos_of_mem (List.mem_filter.2 ⟨List.mem_finRange i, ?_⟩)
  rw [hr]
  exact hf

theorem freeRecord_recordAt {s : State} {i : Slot} {r : Record} (hr : s.recordAt i = some r) :
    (freeRecord i s).recordAt i = none := congrArg SlotCell.record (freeRecord_slot hr)

theorem freeRecord_recordAt_ne {s : State} {i j : Slot} (h : j ≠ i) : (freeRecord i s).recordAt j = s.recordAt j :=
  congrArg SlotCell.record (freeRecord_other_slot h s)

/-- A freed record is counted no more. -/
theorem State.countRecords_freed {s : State} {i : Slot} {r : Record} (hr : s.recordAt i = some r) (f : Record → Bool) :
    s.countRecords f = (freeRecord i s).countRecords f + (f r).toNat :=
  State.countRecords_entered (freeRecord_recordAt hr) hr (fun _ h => (freeRecord_recordAt_ne h).symm) f

/-! ### Held counts and requests (R44, R72, R96, R99) -/

/-- The masters whose requests are not yet decided: the one whose request the unit has in hand, and those in the
queue. -/
def State.undecided (s : State) (hand : Option MasterIndex) : List MasterIndex :=
  hand.toList ++ s.admission.queue.map Request.master

/-- `State.MastersFit`, with a request in the unit's hand. -/
structure State.MastersFitWith (hand : Option MasterIndex) (s : State) : Prop where
  held : ∀ m : MasterIndex, ∀ e, s.masters[m] = some e → e.held = s.ownedBy m
  owners : ∀ i : Slot, ∀ r, s.recordAt i = some r → (s.masters[r.owner]).isSome = true
  queued : ∀ m ∈ s.undecided hand, ∃ e, s.masters[m] = some e ∧ e.phase = .queued
  one_each : (s.undecided hand).Nodup
  awaiting : ∀ m : MasterIndex, ∀ e, s.masters[m] = some e → e.phase ≠ .executing → e.awaited = none

theorem State.mastersFit_iff {s : State} : s.MastersFit ↔ s.MastersFitWith none := by
  have queued : (∀ rq ∈ s.admission.queue, (s.masters[rq.master]).any (fun e => e.phase == .queued) = true) ↔
      ∀ m ∈ s.undecided none, ∃ e, s.masters[m] = some e ∧ e.phase = .queued := by
    simp [State.undecided, Option.any_eq_true]
  exact ⟨fun fit => ⟨fit.held, fit.owners, queued.1 fit.queued, fit.one_each, fit.awaiting⟩,
    fun fit => ⟨fit.held, fit.owners, queued.2 fit.queued, fit.one_each, fit.awaiting⟩⟩

section Masters

variable {query : Bool} {s t : State} {hand : Option MasterIndex} {i : Slot} {r : Record}

/-- The owner of each slot's record. -/
def State.ownerAt (s : State) (i : Slot) : Option MasterIndex := (s.recordAt i).map Record.owner

theorem State.ownedBy_congr (h : ∀ i : Slot, t.ownerAt i = s.ownerAt i) (m : MasterIndex) :
    t.ownedBy m = s.ownedBy m := by
  have any (u : State) (i : Slot) : (u.recordAt i).any (fun r => r.owner == m) = (u.ownerAt i).any (· == m) := by
    rw [State.ownerAt, Option.any_map]
  rw [State.ownedBy_eq, State.ownedBy_eq]
  exact State.countRecords_congr fun i => by rw [any, any, h]

theorem State.ownerAt_of_slots (h : t.slots = s.slots) (i : Slot) : t.ownerAt i = s.ownerAt i := by
  rw [State.ownerAt, State.ownerAt, State.recordAt, State.recordAt, h]

theorem Calm.ownerAt {ms : List MasterIndex} (h : Calm query ms s t) (i : Slot) : t.ownerAt i = s.ownerAt i := by
  have rel : Option.Rel (Kept query) (s.recordAt i) (t.recordAt i) := (h.slots i).record
  rw [State.ownerAt, State.ownerAt]
  cases hs : s.recordAt i with
  | none =>
    cases ht : t.recordAt i with
    | none => rfl
    | some r' => rw [hs, ht] at rel; cases rel
  | some r =>
    cases ht : t.recordAt i with
    | none => rw [hs, ht] at rel; cases rel
    | some r' =>
      rw [hs, ht] at rel
      cases rel with
      | some kept => exact congrArg some kept.owner

theorem State.MastersFitWith.entry_of_owned (fit : s.MastersFitWith hand) {m : MasterIndex} (owned : 0 < s.ownedBy m) :
    (s.masters[m]).isSome = true := by
  obtain ⟨i, hi⟩ := List.exists_mem_of_length_pos owned
  have mine := (List.mem_filter.1 hi).2
  obtain ⟨r, hr, rfl⟩ : ∃ r, s.recordAt i = some r ∧ r.owner = m := by simpa [Option.any_eq_true] using mine
  exact fit.owners i r hr

/-- The same records' owners, the same undecided requests, and entries that keep what matters: none leaves that is owned
or undecided. -/
theorem State.MastersFitWith.of_entries (fit : s.MastersFitWith hand) (owner : ∀ i : Slot, t.ownerAt i = s.ownerAt i)
    {hand' : Option MasterIndex} (sub : (t.undecided hand').Sublist (s.undecided hand))
    (old : ∀ m : MasterIndex, ∀ e', t.masters[m] = some e' → ∃ e, s.masters[m] = some e ∧ e'.held = e.held ∧
      (e'.phase ≠ .executing → e'.awaited = none))
    (owned : ∀ m : MasterIndex, ∀ e, s.masters[m] = some e → 0 < e.held → (t.masters[m]).isSome = true)
    (queued : ∀ m ∈ t.undecided hand', t.masters[m] = s.masters[m]) : t.MastersFitWith hand' where
  held := fun m e' he' => by
    obtain ⟨e, he, held, _⟩ := old m e' he'
    rw [held, State.ownedBy_congr owner]
    exact fit.held m e he
  owners := fun i r' hr' => by
    have same := owner i
    rw [State.ownerAt, hr', State.ownerAt] at same
    obtain ⟨r, hr, mine⟩ := Option.map_eq_some_iff.1 same.symm
    obtain ⟨e, he⟩ := Option.isSome_iff_exists.1 (fit.owners i r hr)
    have held : 0 < e.held := by
      rw [fit.held _ e he, State.ownedBy_eq]
      exact State.countRecords_pos hr (beq_self_eq_true _)
    have mine : r'.owner = r.owner := mine.symm
    simpa only [mine] using owned _ e he held
  queued := fun m hm => by
    rw [queued m hm]
    exact fit.queued m (sub.subset hm)
  one_each := fit.one_each.sublist sub
  awaiting := fun m e' he' => (old m e' he').choose_spec.2.2

theorem Master.replyLeft_eq_some {e e' : Master} (h : e.replyLeft = some e') :
    e' = e ∨ (e.phase = .replyDue ∧ e' = { e with phase := .idle, request := none, awaited := none }) := by
  unfold Master.replyLeft at h
  split at h
  · next due =>
    split at h
    · cases h
    · exact .inr ⟨due, (Option.some.inj h).symm⟩
  · exact .inl (Option.some.inj h).symm

theorem State.MastersFitWith.calm {ms : List MasterIndex} (fit : s.MastersFitWith hand) (h : Calm query ms s t) :
    t.MastersFitWith hand := by
  have undecided : t.undecided hand = s.undecided hand := by rw [State.undecided, h.queue]; rfl
  refine fit.of_entries h.ownerAt (undecided ▸ List.Sublist.refl _) (fun m e' he' => ?_) (fun m e he held => ?_)
    fun m hm => ?_
  all_goals rw [h.masters m] at *
  · split at he'
    · obtain ⟨e, he, left⟩ := Option.bind_eq_some_iff.1 he'
      rcases Master.replyLeft_eq_some left with rfl | ⟨_, rfl⟩
      · exact ⟨e', he, rfl, fit.awaiting m e' he⟩
      · exact ⟨e, he, rfl, fun _ => rfl⟩
    · exact ⟨e', he', rfl, fit.awaiting m e' he'⟩
  · split
    · rw [he, Option.bind_some, Master.replyLeft]
      split
      · rw [if_neg held.ne']
        rfl
      · rfl
    · rw [he]
      rfl
  · split
    · rw [undecided] at hm
      obtain ⟨e, he, phase⟩ := fit.queued m hm
      rw [he, Option.bind_some, Master.replyLeft, if_neg (by rw [phase]; nofun)]
    · rfl

/-- One entry changes, of a master whose request is decided. -/
theorem State.MastersFitWith.of_entry (fit : s.MastersFitWith hand) (slots : t.slots = s.slots) {m : MasterIndex}
    {x : Option Master} (masters : t.masters = s.masters.set m x) {e : Master} (he : s.masters[m] = some e)
    (old : ∀ e', x = some e' → e'.held = e.held ∧ (e'.phase ≠ .executing → e'.awaited = none))
    (owned : 0 < e.held → x.isSome = true) {hand' : Option MasterIndex}
    (sub : (t.undecided hand').Sublist (s.undecided hand)) (decided : m ∉ t.undecided hand') :
    t.MastersFitWith hand' := by
  have entry (k : MasterIndex) : t.masters[k] = if k = m then x else s.masters[k] := by
    rw [masters]
    exact s.withMaster_master m k x
  refine fit.of_entries (State.ownerAt_of_slots slots) sub (fun k e' he' => ?_) (fun k e' he' held => ?_) fun k hk => ?_
  · rw [entry] at he'
    split at he'
    · next same =>
      subst same
      exact ⟨e, he, old e' he'⟩
    · exact ⟨e', he', rfl, fit.awaiting k e' he'⟩
  · rw [entry]
    split
    · next same =>
      subst same
      cases he.symm.trans he'
      exact owned held
    · rw [he']
      rfl
  · rw [entry, if_neg]
    rintro rfl
    exact decided hk

/-- The entry of a master after its answer: in REPLY_DUE, IDLE, or removed when it holds no record. -/
theorem State.answered_masters (s : State) (m : MasterIndex) (e : Master) (cr : CurrentRequest) (st : Status)
    (body : AnswerBody) : ∃ x, (s.answered m e cr st body).masters = s.masters.set m x ∧
      (∀ e', x = some e' → e'.held = e.held ∧ (e'.phase ≠ .executing → e'.awaited = none)) ∧
      (0 < e.held → x.isSome = true) := by
  unfold State.answered
  split
  · exact ⟨_, rfl, fun e' h => by cases h; exact ⟨rfl, fun _ => rfl⟩, fun _ => rfl⟩
  · refine ⟨_, rfl, fun e' h => ?_, fun held => ?_⟩
    · split at h
      · cases h
      · cases h; exact ⟨rfl, fun _ => rfl⟩
    · rw [if_neg held.ne']
      rfl

theorem State.answered_undecided (s : State) (m : MasterIndex) (e : Master) (cr : CurrentRequest) (st : Status)
    (body : AnswerBody) (hand : Option MasterIndex) :
    (s.answered m e cr st body).undecided hand = s.undecided hand := by
  rw [State.undecided, (Told.answered s m e cr st body).quiet.admission]
  rfl

/-- A master that awaits an answer has no undecided request. -/
theorem State.MastersFitWith.not_undecided (fit : s.MastersFitWith hand) {m : MasterIndex} {e : Master}
    (he : s.masters[m] = some e) (phase : e.phase ≠ .queued) : m ∉ s.undecided hand := by
  intro hm
  obtain ⟨e', he', queued⟩ := fit.queued m hm
  cases he.symm.trans he'
  exact phase queued

theorem State.MastersFitWith.executing (fit : s.MastersFitWith hand) {m : MasterIndex} {e : Master}
    (he : s.masters[m] = some e) (awaits : e.awaited ≠ none) : e.phase = .executing :=
  Decidable.not_not.1 fun other => awaits (fit.awaiting m e he other)

/-- The master in hand has no other request. -/
theorem State.MastersFitWith.hand_decided {m : MasterIndex} (fit : s.MastersFitWith (some m)) :
    m ∉ s.undecided none ∧ ∃ e, s.masters[m] = some e ∧ e.phase = .queued :=
  ⟨(List.nodup_cons.1 fit.one_each).1, fit.queued m List.mem_cons_self⟩

theorem State.undecided_none_sublist (s : State) (hand : Option MasterIndex) :
    (s.undecided none).Sublist (s.undecided hand) := List.sublist_append_right ..

theorem State.MastersFitWith.answeredAwaited (fit : s.MastersFitWith hand) {m : MasterIndex} {e : Master}
    (he : s.masters[m] = some e) (awaits : e.awaited ≠ none) (cr : CurrentRequest) (st : Status) (body : AnswerBody) :
    (s.answered m e cr st body).MastersFitWith hand := by
  obtain ⟨x, masters, old, owned⟩ := s.answered_masters m e cr st body
  have undecided := s.answered_undecided m e cr st body hand
  refine fit.of_entry (Told.answered s m e cr st body).slots masters he old owned (undecided ▸ List.Sublist.refl _) ?_
  rw [undecided]
  exact fit.not_undecided he (by rw [fit.executing he awaits]; nofun)

theorem State.MastersFitWith.answeredHand {m : MasterIndex} (fit : s.MastersFitWith (some m)) {e : Master}
    (he : s.masters[m] = some e) (cr : CurrentRequest) (st : Status) (body : AnswerBody) :
    (s.answered m e cr st body).MastersFitWith none := by
  obtain ⟨x, masters, old, owned⟩ := s.answered_masters m e cr st body
  have undecided := s.answered_undecided m e cr st body none
  refine fit.of_entry (Told.answered s m e cr st body).slots masters he old owned ?_ ?_
  · rw [undecided]
    exact s.undecided_none_sublist _
  · rw [undecided]
    exact fit.hand_decided.1

theorem State.MastersFitWith.deferredHand {m : MasterIndex} (fit : s.MastersFitWith (some m)) (x : Awaited) :
    (deferMaster m x s).MastersFitWith none := by
  obtain ⟨e, he, _⟩ := fit.hand_decided.2
  rw [deferMaster_eq he]
  exact fit.of_entry (t := s.withMaster m (some { e with phase := .executing, awaited := some x })) rfl rfl he
    (fun e' h => by cases h; exact ⟨rfl, fun other => absurd rfl other⟩) (fun _ => rfl) (s.undecided_none_sublist _)
    fit.hand_decided.1

/-- A request joins the queue, of a master that had none (R97, R106). -/
theorem State.MastersFitWith.accepted (fit : s.MastersFitWith none) {rq : Request} {x : Master}
    (phase : x.phase = .queued)
    (old : (∃ e, s.masters[rq.master] = some e ∧ e.phase = .idle ∧ x.held = e.held ∧ x.awaited = e.awaited) ∨
      (s.masters[rq.master] = none ∧ x.held = 0 ∧ x.awaited = none)) :
    State.MastersFitWith none
      { s with
        masters := s.masters.set rq.master (some x)
        admission := { s.admission with queue := s.admission.queue ++ [rq] } } := by
  have entry (k : MasterIndex) : (s.masters.set rq.master (some x))[k] =
      if k = rq.master then some x else s.masters[k] :=
    s.withMaster_master rq.master k (some x)
  have undecided : State.undecided { s with
        masters := s.masters.set rq.master (some x)
        admission := { s.admission with queue := s.admission.queue ++ [rq] } } none =
      s.undecided none ++ [rq.master] := by
    simp [State.undecided]
  have new : rq.master ∉ s.undecided none := by
    intro hm
    obtain ⟨e', he', queued⟩ := fit.queued _ hm
    rcases old with ⟨e, he, idle, _⟩ | ⟨free, _⟩
    · cases he.symm.trans he'
      rw [idle] at queued
      cases queued
    · rw [free] at he'
      cases he'
  have held : x.held = s.ownedBy rq.master ∧ x.awaited = none := by
    rcases old with ⟨e, he, idle, held, awaited⟩ | ⟨free, held, awaited⟩
    · exact ⟨held.trans (fit.held _ e he), awaited.trans (fit.awaiting _ e he (by rw [idle]; nofun))⟩
    · refine ⟨held.trans (Nat.eq_zero_of_not_pos fun owned => ?_).symm, awaited⟩
      have entry := fit.entry_of_owned owned
      rw [free] at entry
      cases entry
  refine ⟨fun m e he => ?_, fun i r hr => ?_, fun m hm => ?_, ?_, fun m e he other => ?_⟩
  · rw [entry] at he
    split at he
    · next same =>
      subst same
      cases he
      exact held.1
    · exact fit.held m e he
  · rw [entry]
    split
    · rfl
    · exact fit.owners i r hr
  · rw [undecided] at hm
    rw [entry]
    rcases List.mem_append.1 hm with before | last
    · rw [if_neg]
      · exact fit.queued m before
      · rintro rfl
        exact new before
    · rw [if_pos (List.mem_singleton.1 last)]
      exact ⟨x, rfl, phase⟩
  · rw [undecided]
    exact List.nodup_append.2 ⟨fit.one_each, List.nodup_singleton _, fun a ha b hb same => new (by
      rw [← List.mem_singleton.1 hb, ← same]; exact ha)⟩
  · rw [entry] at he
    split at he
    · cases he
      exact held.2
    · exact fit.awaiting m e he other

theorem State.MastersFitWith.masterStep {g h : Ghost} (fit : s.MastersFitWith g.hand) (m : MasterStep g s h t) :
    t.MastersFitWith h.hand := by
  cases m with
  | told he awaits => exact fit.answeredAwaited he awaits ..
  | @taken l a s rq head =>
    have same : s.decided.undecided (some rq.master) = s.undecided none := by
      obtain ⟨rest, queue⟩ := List.head?_eq_some_iff.1 head
      simp [State.undecided, State.decided, queue]
    exact fit.of_entries (t := s.decided) (hand' := some rq.master) (fun _ => rfl) (by rw [same])
      (fun m e he => ⟨e, he, rfl, fit.awaiting m e he⟩)
      (fun m e he _ => Option.isSome_iff_exists.2 ⟨e, he⟩) fun _ _ => rfl
  | answered he => exact fit.answeredHand he ..
  | deferred x => exact fit.deferredHand x
  | dropped =>
    exact fit.of_entries (fun _ => rfl) (State.undecided_none_sublist _ _)
      (fun m e he => ⟨e, he, rfl, fit.awaiting m e he⟩)
      (fun m e he _ => by rw [he]; rfl) fun _ _ => rfl
  | accepted phase old => exact fit.accepted phase old

/-- A record leaves its slot, and its owner's held count falls with it (R44, R98). -/
theorem State.MastersFitWith.freeRecord (fit : s.MastersFitWith hand) (hr : s.recordAt i = some r) :
    (Machine.freeRecord i s).MastersFitWith hand := by
  have entry (k : MasterIndex) : (Machine.freeRecord i s).masters[k] =
      if k = r.owner then (s.masters[r.owner]).bind Master.fewer else s.masters[k] := by
    rw [freeRecord_masters hr]
    exact s.withMaster_master r.owner k _
  have count (m : MasterIndex) : s.ownedBy m = (Machine.freeRecord i s).ownedBy m + (r.owner == m).toNat :=
    State.countRecords_freed hr _
  have undecided : (Machine.freeRecord i s).undecided hand = s.undecided hand := by
    rw [State.undecided, freeRecord_frame]
    rfl
  obtain ⟨e, he⟩ := Option.isSome_iff_exists.1 (fit.owners i r hr)
  have held := fit.held _ e he
  have own := count r.owner
  rw [beq_self_eq_true, Bool.toNat_true] at own
  refine ⟨fun m e' he' => ?_, fun j r' hr' => ?_, fun m hm => ?_, ?_, fun m e' he' other => ?_⟩
  · rw [entry] at he'
    split at he'
    · next same =>
      subst same
      rw [he, Option.bind_some, Master.fewer] at he'
      split at he'
      · cases he'
      · cases he'
        show e.held - 1 = _
        omega
    · next apart =>
      have same := count m
      rw [beq_eq_false_iff_ne.2 (Ne.symm apart)] at same
      rw [fit.held m e' he', same]
      rfl
  · have other : j ≠ i := by
      rintro rfl
      rw [freeRecord_recordAt hr] at hr'
      cases hr'
    rw [entry]
    split
    · next same =>
      have more : 0 < (Machine.freeRecord i s).ownedBy r.owner :=
        State.countRecords_pos hr' (beq_iff_eq.2 same)
      rw [he, Option.bind_some, Master.fewer, if_neg (by omega)]
      rfl
    · rw [freeRecord_recordAt_ne other] at hr'
      exact fit.owners j r' hr'
  · rw [undecided] at hm
    obtain ⟨x, hx, queued⟩ := fit.queued m hm
    rw [entry]
    split
    · next same =>
      subst same
      cases he.symm.trans hx
      rw [he, Option.bind_some, Master.fewer_of_phase (by rw [queued]; nofun)]
      exact ⟨_, rfl, queued⟩
    · exact ⟨x, hx, queued⟩
  · rw [undecided]
    exact fit.one_each
  · rw [entry] at he'
    split at he'
    · next same =>
      subst same
      rw [he, Option.bind_some, Master.fewer] at he'
      split at he'
      · cases he'
      · cases he'
        exact fit.awaiting _ e he other
    · exact fit.awaiting m e' he' other

theorem Moves.mastersFit {g h : Ghost} (m : Moves query g s h t) (fit : s.MastersFitWith g.hand) :
    t.MastersFitWith h.hand := by
  have same {hand : Option MasterIndex} {s t : State} (fit : s.MastersFitWith hand)
      (owner : ∀ i : Slot, t.ownerAt i = s.ownerAt i) (masters : t.masters = s.masters)
      (queue : t.admission.queue = s.admission.queue) : t.MastersFitWith hand := by
    have undecided : t.undecided hand = s.undecided hand := by rw [State.undecided, queue]; rfl
    refine fit.of_entries owner (undecided ▸ List.Sublist.refl _) (fun m e he => ?_) (fun m e he _ => ?_) fun m _ => ?_
    all_goals rw [masters] at *
    · exact ⟨e, he, rfl, fit.awaiting m e he⟩
    · rw [he]
      rfl
  induction m with
  | refl => exact fit
  | trans _ _ ih ih' => exact ih' (ih fit)
  | calm h => exact fit.calm h
  | master h => exact fit.masterStep h
  | @station g h s t m =>
    rw [m.frame]
    have fit : State.MastersFitWith g.hand { s with stations := t.stations } := same fit (fun _ => rfl) rfl rfl
    cases m <;> exact fit
  | @ended g s i r hr standing why =>
    refine same fit (fun j => ?_) rfl rfl
    by_cases here : j = i
    · subst here
      rw [State.ownerAt, State.ownerAt, hr, State.recordAt, State.withEnded_slot]
      rfl
    · rw [State.ownerAt, State.recordAt, State.withEnded_other here]
      rfl
  | freed hr ending => exact fit.freeRecord hr
  | @withdrawn h a s i r hr pending =>
    exact (same (t := withdraw i s) fit (fun _ => rfl) rfl rfl).freeRecord (s := withdraw i s) hr
  | policy => exact same fit (fun _ => rfl) rfl rfl
  | timing => exact same fit (fun _ => rfl) rfl rfl
  | switched =>
    refine same fit (State.ownerAt_of_slots (calendarSwitch_slots _)) ?_ ?_
    all_goals rw [calendarSwitch_frame]
  | @installed h l a s i r st hr pending standing empty n =>
    refine same fit (fun j => ?_) rfl rfl
    by_cases here : j = i
    · subst here
      rw [State.ownerAt, State.ownerAt, hr, State.withRecord_recordAt]
      rfl
    · rw [State.ownerAt, State.recordAt, s.withRecord_slot_ne here]
      rfl
  | passed => exact fit

end Masters

end Sys2Proof.Machine

/-! SUPPORT. Replies over any command (O58): each on the control queue of its master's port, and one at most (R99,
R116); then the grant and the release of RESET for masters and replies. -/

namespace Sys2Proof.Machine

section Replies

variable {query : Bool} {s t v : State} {hand : Option MasterIndex} {i : Slot} {r : Record}

theorem PortState.replyMasters_congr {ps ps' : PortState} (tx : ps'.tx = ps.tx)
    (control : ps'.controlQueue = ps.controlQueue) : ps'.replyMasters = ps.replyMasters := by
  rw [PortState.replyMasters_eq, PortState.replyMasters_eq, PortState.controlFrames_eq, PortState.controlFrames_eq, tx,
    control]

/-- Replies leave, and the masters of those that stay keep their port and stay in REPLY_DUE. -/
theorem State.RepliesFit.of_fewer (fit : s.RepliesFit)
    (fewer : ∀ p : Port, (t.ports[p]).replyMasters.Subperm (s.ports[p]).replyMasters)
    (entry : ∀ p : Port, ∀ m ∈ (t.ports[p]).replyMasters, ∀ e, s.masters[m] = some e → e.phase = .replyDue →
      ∃ e', t.masters[m] = some e' ∧ e'.port = e.port ∧ e'.phase = .replyDue) : t.RepliesFit where
  one_each := fun p => by
    obtain ⟨l, perm, sub⟩ := fewer p
    exact (perm.nodup_iff).1 ((fit.one_each p).sublist sub)
  due := fun p m hm => by
    obtain ⟨e, he, port, phase⟩ := fit.due p m ((fewer p).subset hm)
    obtain ⟨e', he', port', phase'⟩ := entry p m hm e he phase
    exact ⟨e', he', port'.trans port, phase'⟩

theorem State.RepliesFit.of_same (fit : s.RepliesFit)
    (same : ∀ p : Port, (t.ports[p]).replyMasters = (s.ports[p]).replyMasters) (masters : t.masters = s.masters) :
    t.RepliesFit :=
  fit.of_fewer (fun p => by rw [same]) fun p m _ e he phase => ⟨e, by rw [masters]; exact he, rfl, phase⟩

/-- A master with no reply due has none on any queue. -/
theorem State.RepliesFit.not_replying (fit : s.RepliesFit) {m : MasterIndex}
    (other : ∀ e, s.masters[m] = some e → e.phase ≠ .replyDue) (p : Port) : m ∉ (s.ports[p]).replyMasters := by
  intro hm
  obtain ⟨e, he, _, phase⟩ := fit.due p m hm
  exact other e he phase

/-- The entry of a master with no reply due changes. -/
theorem State.RepliesFit.of_entry (fit : s.RepliesFit) (ports : t.ports = s.ports) {m : MasterIndex} {x : Option Master}
    (masters : t.masters = s.masters.set m x) (other : ∀ e, s.masters[m] = some e → e.phase ≠ .replyDue) :
    t.RepliesFit := by
  refine fit.of_fewer (fun p => by rw [ports]) fun p k hk e he phase => ?_
  rw [ports] at hk
  have entry : t.masters[k] = if k = m then x else s.masters[k] := by
    rw [masters]
    exact s.withMaster_master m k x
  rw [entry, if_neg]
  · exact ⟨e, he, rfl, phase⟩
  · rintro rfl
    exact fit.not_replying other p hk

theorem State.RepliesFit.calm {ms : List MasterIndex} (fit : s.RepliesFit) (h : Calm query ms s t) : t.RepliesFit := by
  refine fit.of_fewer (fun p => (h.ports p).replies) fun p m hm e he phase => ⟨e, ?_, rfl, phase⟩
  rw [h.masters m, if_neg]
  · exact he
  · intro gone
    exact h.gone fit m gone p hm

/-- A master with no reply due is answered: one reply more, or none. -/
theorem State.RepliesFit.answered (fit : s.RepliesFit) {m : MasterIndex} {e : Master} (he : s.masters[m] = some e)
    (phase : e.phase ≠ .replyDue) (cr : CurrentRequest) (st : Status) (body : AnswerBody) :
    (s.answered m e cr st body).RepliesFit := by
  have other : ∀ e', s.masters[m] = some e' → e'.phase ≠ .replyDue := by
    intro e' he'
    cases he.symm.trans he'
    exact phase
  unfold State.answered
  split
  · have port (q : Port) : (((s.withControl e.port (replyTo m e cr st body)).withMaster m
        (some { e with phase := .replyDue, awaited := none })).ports[q]).replyMasters =
          (s.ports[q]).replyMasters ++ if q = e.port then [m] else [] := by
      have get := s.modPort_get e.port q fun ps =>
        { ps with controlQueue := ps.controlQueue ++ [replyTo m e cr st body] }
      refine (congrArg PortState.replyMasters get).trans ?_
      split
      · next h =>
        subst h
        rw [PortState.replyMasters_eq, PortState.replyMasters_eq, PortState.controlFrames_eq,
          PortState.controlFrames_eq,
          ← List.append_assoc, List.filterMap_append]
        rfl
      · exact (List.append_nil _).symm
    have entry (k : MasterIndex) : ((s.withControl e.port (replyTo m e cr st body)).withMaster m
        (some { e with phase := .replyDue, awaited := none })).masters[k] =
          if k = m then some { e with phase := .replyDue, awaited := none } else s.masters[k] :=
      s.withMaster_master m k _
    refine ⟨fun q => ?_, fun q k hk => ?_⟩
    · rw [port]
      split
      · exact List.nodup_append.2 ⟨fit.one_each q, List.nodup_singleton _, fun a ha b hb same =>
          fit.not_replying other q (by rw [← List.mem_singleton.1 hb, ← same]; exact ha)⟩
      · rw [List.append_nil]
        exact fit.one_each q
    · rw [port] at hk
      rw [entry]
      rcases List.mem_append.1 hk with before | new
      · rw [if_neg]
        · exact fit.due q k before
        · rintro rfl
          exact fit.not_replying other q before
      · split at new
        · next here =>
          rw [if_pos (List.mem_singleton.1 new)]
          exact ⟨_, rfl, here.symm, rfl⟩
        · exact absurd new List.not_mem_nil
  · exact fit.of_entry rfl rfl other

theorem State.RepliesFit.masterStep {g h : Ghost} (fit : s.RepliesFit) (masters : s.MastersFitWith g.hand)
    (m : MasterStep g s h t) : t.RepliesFit := by
  cases m with
  | told he awaits => exact fit.answered he (by rw [masters.executing he awaits]; nofun) ..
  | taken head => exact fit.of_same (fun _ => rfl) rfl
  | @answered l a s m e he =>
    obtain ⟨e', he', queued⟩ := masters.hand_decided.2
    cases he.symm.trans he'
    exact fit.answered he (by rw [queued]; nofun) ..
  | deferred x =>
    obtain ⟨e, he, queued⟩ := masters.hand_decided.2
    rw [deferMaster_eq he]
    refine fit.of_entry rfl rfl fun e' he' => ?_
    cases he.symm.trans he'
    rw [queued]
    nofun
  | dropped => exact fit
  | accepted phase old =>
    refine fit.of_entry rfl rfl fun e' he' => ?_
    rcases old with ⟨e, he, idle, _⟩ | ⟨free, _⟩
    · cases he.symm.trans he'
      rw [idle]
      nofun
    · rw [free] at he'
      cases he'

theorem State.RepliesFit.freeRecord (fit : s.RepliesFit) (hr : s.recordAt i = some r) :
    (Machine.freeRecord i s).RepliesFit := by
  refine fit.of_fewer (fun p => by rw [freeRecord_ports]) fun p m _ e he phase => ?_
  have entry : (Machine.freeRecord i s).masters[m] =
      if m = r.owner then (s.masters[r.owner]).bind Master.fewer else s.masters[m] := by
    rw [freeRecord_masters hr]
    exact s.withMaster_master r.owner m _
  rw [entry]
  split
  · next same =>
    subst same
    rw [he, Option.bind_some, Master.fewer_of_phase (by rw [phase]; nofun)]
    exact ⟨_, rfl, rfl, phase⟩
  · exact ⟨e, he, rfl, phase⟩

theorem Moves.repliesFit {g h : Ghost} (m : Moves query g s h t) (masters : s.MastersFitWith g.hand)
    (fit : s.RepliesFit) : t.RepliesFit := by
  induction m with
  | refl => exact fit
  | trans m _ ih ih' => exact ih' (m.mastersFit masters) (ih masters fit)
  | calm h => exact fit.calm h
  | master h => exact fit.masterStep masters h
  | station h =>
    rw [h.frame]
    exact fit.of_same (fun _ => rfl) rfl
  | ended hr standing why =>
    refine fit.of_same (fun p => ?_) rfl
    rw [State.withEnded_port]
    exact PortState.replyMasters_congr rfl rfl
  | freed hr ending => exact fit.freeRecord hr
  | @withdrawn h a s i r hr pending =>
    exact (fit.of_same (t := withdraw i s) (fun _ => rfl) rfl).freeRecord (s := withdraw i s) hr
  | policy =>
    refine fit.of_same (fun q => ?_) rfl
    rw [writePolicy, State.modPort_get]
    split
    · next h =>
      subst h
      exact PortState.replyMasters_congr rfl rfl
    · rfl
  | timing => exact fit.of_same (fun _ => rfl) rfl
  | switched =>
    refine fit.of_same (fun p => ?_) (by rw [calendarSwitch_frame])
    rw [calendarSwitch_port]
    exact PortState.replyMasters_congr rfl rfl
  | installed => exact fit.of_same (fun _ => rfl) rfl
  | passed => exact fit

/-! ### The grant (R44, R90, R107) -/

theorem State.withGrant_recordAt (v : State) (i : Slot) (r : Record) : (v.withGrant i r).recordAt i = some r :=
  congrArg SlotCell.record (v.modSlot_get_self i fun c => { c with record := some r, queue0 := [], queue1 := [] })

theorem State.withGrant_recordAt_ne (v : State) {i j : Slot} (h : j ≠ i) (r : Record) :
    (v.withGrant i r).recordAt j = v.recordAt j := congrArg SlotCell.record (v.withGrant_other_slot h r)

theorem State.withGrant_master (v : State) (i : Slot) (r : Record) {e : Master} (he : v.masters[r.owner] = some e) :
    (v.withGrant i r).masters = v.masters.set r.owner
      (some { e with held := e.held + 1, phase := .executing, awaited := some (.grant i) }) := by
  have hm : v.masters[r.owner.val] = some e := he
  simp [State.withGrant, hm]

theorem State.MastersFitWith.withGrant (fit : v.MastersFitWith (some r.owner)) (free : v.recordAt i = none) :
    (v.withGrant i r).MastersFitWith none := by
  obtain ⟨decided, e, he, queued⟩ := fit.hand_decided
  have entry (k : MasterIndex) : (v.withGrant i r).masters[k] = if k = r.owner then
      some { e with held := e.held + 1, phase := .executing, awaited := some (.grant i) } else v.masters[k] := by
    rw [v.withGrant_master i r he]
    exact v.withMaster_master r.owner k _
  have count (m : MasterIndex) : (v.withGrant i r).ownedBy m = v.ownedBy m + (r.owner == m).toNat :=
    State.countRecords_entered free (v.withGrant_recordAt i r) (fun _ h => v.withGrant_recordAt_ne h r) _
  have undecided : (v.withGrant i r).undecided none = v.undecided none := rfl
  refine ⟨fun m e' he' => ?_, fun j r' hr' => ?_, fun m hm => ?_, ?_, fun m e' he' other => ?_⟩
  · rw [entry] at he'
    rw [count]
    split at he'
    · next same =>
      subst same
      cases he'
      rw [beq_self_eq_true, Bool.toNat_true, ← fit.held _ e he]
    · next apart =>
      rw [beq_eq_false_iff_ne.2 (Ne.symm apart), ← fit.held m e' he']
      rfl
  · rw [entry]
    split
    · rfl
    · next apart =>
      have other : j ≠ i := by
        rintro rfl
        rw [v.withGrant_recordAt] at hr'
        cases hr'
        exact apart rfl
      rw [v.withGrant_recordAt_ne other] at hr'
      exact fit.owners j r' hr'
  · rw [undecided] at hm
    rw [entry, if_neg]
    · exact fit.queued m (List.mem_cons_of_mem _ hm)
    · rintro rfl
      exact decided hm
  · rw [undecided]
    exact fit.one_each.sublist (v.undecided_none_sublist _)
  · rw [entry] at he'
    split at he'
    · cases he'
      exact absurd rfl other
    · exact fit.awaiting m e' he' other

theorem State.RepliesFit.withGrant (fit : v.RepliesFit) (masters : v.MastersFitWith (some r.owner)) :
    (v.withGrant i r).RepliesFit := by
  obtain ⟨_, e, he, queued⟩ := masters.hand_decided
  refine fit.of_entry rfl (v.withGrant_master i r he) fun e' he' => ?_
  cases he.symm.trans he'
  rw [queued]
  nofun

theorem Grants.mastersFit (grants : Grants s t) (fit : s.MastersFitWith none) : t.MastersFitWith none := by
  cases grants with
  | intro granted pins shrunk =>
    exact ((pins true).mastersFit fit).withGrant (shrunk.free _ (State.freeSlot_eq.1 granted.slot).1)

theorem Grants.repliesFit (grants : Grants s t) (masters : s.MastersFitWith none) (fit : s.RepliesFit) :
    t.RepliesFit := by
  cases grants with
  | intro granted pins shrunk => exact ((pins true).repliesFit masters fit).withGrant ((pins true).mastersFit masters)

end Replies

/-! ### The release of RESET -/

section Reset

variable (straps : Straps) (lines : Vector PhyLines 8) (pending : List Instr)

theorem resetWith_mastersFit : (State.resetWith straps lines pending).MastersFitWith none where
  held := fun m e he => by rw [resetWith_master] at he; cases he
  owners := fun i r hr => by rw [resetWith_recordAt] at hr; cases hr
  queued := nofun
  one_each := List.nodup_nil
  awaiting := fun m e he => by rw [resetWith_master] at he; cases he

theorem resetWith_repliesFit : (State.resetWith straps lines pending).RepliesFit where
  one_each := fun p => by rw [resetWith_port]; exact List.nodup_nil
  due := fun p m hm => by
    rw [resetWith_port] at hm
    exact absurd hm List.not_mem_nil

end Reset

/-! ### The places of a control queue (R116) -/

/-- Every frame that holds a place is a reply or not. -/
theorem PortState.controlFrames_length (ps : PortState) :
    ps.controlFrames.length = ps.replyMasters.length + ps.nonReplies := by
  rw [PortState.replyMasters_eq, PortState.nonReplies_eq]
  induction ps.controlFrames with
  | nil => rfl
  | cons f l ih =>
    rw [List.filterMap_cons, List.filter_cons, List.length_cons, ih]
    unfold ControlFrame.replyMaster ControlFrame.nonReply
    cases f.cls <;> simp <;> omega

/-- Settles O58: every move keeps the places, and the replies one for each master in REPLY_DUE. -/
theorem queuesStayBounded : Obligations.QueuesStayBounded := by
  refine ⟨fun s t bounded h => ?_, fun s t masters fit h => ?_, fun s bounded fit p => ?_⟩
  · exact step_keeps (Inv := fun _ s => s.QueuesBounded) Moves.queuesBounded Grants.queuesBounded
      resetWith_queuesBounded h bounded
  · exact (step_keeps (Inv := fun g s => s.MastersFitWith g.hand ∧ s.RepliesFit)
      (fun m inv => ⟨m.mastersFit inv.1, m.repliesFit inv.1 inv.2⟩)
      (fun g inv => ⟨g.mastersFit inv.1, g.repliesFit inv.1 inv.2⟩)
      (fun straps lines pending => ⟨resetWith_mastersFit .., resetWith_repliesFit ..⟩) h
      ⟨State.mastersFit_iff.1 masters, fit⟩).2
  · have replies : (s.ports[p]).replyMasters.length ≤ 16 := by
      simpa using (fit.one_each p).length_le_card
    rw [PortState.controlFrames_length]
    exact ⟨replies, Nat.add_le_add replies (bounded.nonReplies p)⟩

end Sys2Proof.Machine

/-! SUPPORT. Pin counts over any command (O59): each the number of records that name the address, and an entry for every
address named (R45, R167, R170, R171). -/

namespace Sys2Proof.Machine

/-- Some entry of the station table has this address. -/
def State.knows (s : State) (a : Addr) : Prop := ∃ (j : Place) (e : Station), s.stations[j] = some e ∧ e.addr = a

/-- `State.PinsFit`, with the addresses of `l` pinned for a record that is still to be entered. -/
structure State.PinsFitWith (l : List Addr) (s : State) : Prop where
  distinct : s.AddressesDistinct
  pins : ∀ j : Place, ∀ e, s.stations[j] = some e → e.pins = s.timesNamed e.addr + l.count e.addr
  named : ∀ i : Slot, ∀ r, s.recordAt i = some r → ∀ a ∈ [r.ownerAddr, r.destAddr], s.knows a
  entering : ∀ a ∈ l, s.knows a

section Pins

variable {query : Bool} {s t v : State} {l : List Addr} {i : Slot} {r : Record}

theorem State.pinsFit_iff : s.PinsFit ↔ s.PinsFitWith [] :=
  ⟨fun fit => ⟨fit.distinct, fit.pins, fit.named, fun _ h => absurd h List.not_mem_nil⟩,
    fun fit => ⟨fit.distinct, fit.pins, fit.named⟩⟩

/-! ### How often an address is named -/

theorem State.timesNamed_eq (s : State) (a : Addr) :
    s.timesNamed a = s.countRecords (fun r => r.ownerAddr == a) + s.countRecords (fun r => r.destAddr == a) := rfl

/-- The two addresses of each slot's record. -/
def State.addrsAt (s : State) (i : Slot) : Option (Addr × Addr) := (s.recordAt i).map fun r => (r.ownerAddr, r.destAddr)

theorem State.timesNamed_congr (h : ∀ i : Slot, t.addrsAt i = s.addrsAt i) (a : Addr) :
    t.timesNamed a = s.timesNamed a := by
  have owner (u : State) (i : Slot) : (u.recordAt i).any (fun r => r.ownerAddr == a) =
      (u.addrsAt i).any fun x => x.1 == a := by rw [State.addrsAt, Option.any_map]
  have dest (u : State) (i : Slot) : (u.recordAt i).any (fun r => r.destAddr == a) =
      (u.addrsAt i).any fun x => x.2 == a := by rw [State.addrsAt, Option.any_map]
  rw [State.timesNamed_eq, State.timesNamed_eq,
    State.countRecords_congr (t := t) (s := s) fun i => by rw [owner, owner, h],
    State.countRecords_congr (t := t) (s := s) fun i => by rw [dest, dest, h]]

theorem State.addrsAt_of_slots (h : t.slots = s.slots) (i : Slot) : t.addrsAt i = s.addrsAt i := by
  rw [State.addrsAt, State.addrsAt, State.recordAt, State.recordAt, h]

theorem Calm.addrsAt {ms : List MasterIndex} (h : Calm query ms s t) (i : Slot) : t.addrsAt i = s.addrsAt i := by
  have rel : Option.Rel (Kept query) (s.recordAt i) (t.recordAt i) := (h.slots i).record
  rw [State.addrsAt, State.addrsAt]
  cases hs : s.recordAt i with
  | none =>
    cases ht : t.recordAt i with
    | none => rfl
    | some r' => rw [hs, ht] at rel; cases rel
  | some r =>
    cases ht : t.recordAt i with
    | none => rw [hs, ht] at rel; cases rel
    | some r' =>
      rw [hs, ht] at rel
      cases rel with
      | some kept => exact congrArg some (Prod.ext kept.ownerAddr kept.destAddr)

theorem State.countRecords_exists {f : Record → Bool} (h : 0 < s.countRecords f) :
    ∃ (i : Slot) (r : Record), s.recordAt i = some r ∧ f r = true := by
  obtain ⟨i, hi⟩ := List.exists_mem_of_length_pos h
  exact ⟨i, (Option.any_eq_true ..).1 (List.mem_filter.1 hi).2⟩

/-- An address that is named is known. -/
theorem State.PinsFitWith.knows_of_named (fit : s.PinsFitWith l) {a : Addr} (named : 0 < s.timesNamed a) :
    s.knows a := by
  rw [State.timesNamed_eq] at named
  rcases Nat.add_pos_iff_pos_or_pos.1 named with h | h
  · obtain ⟨i, r, hr, same⟩ := State.countRecords_exists h
    exact fit.named i r hr a (by simp [← beq_iff_eq.1 same])
  · obtain ⟨i, r, hr, same⟩ := State.countRecords_exists h
    exact fit.named i r hr a (by simp [← beq_iff_eq.1 same])

theorem State.timesNamed_pos (hr : s.recordAt i = some r) {a : Addr} (ha : a ∈ [r.ownerAddr, r.destAddr]) :
    0 < s.timesNamed a := by
  rw [State.timesNamed_eq]
  rcases List.mem_cons.1 ha with owner | dest
  · exact Nat.add_pos_left (State.countRecords_pos (f := fun x => x.ownerAddr == a) hr (beq_iff_eq.2 owner.symm)) _
  · exact Nat.add_pos_right _ (State.countRecords_pos (f := fun x => x.destAddr == a) hr
      (beq_iff_eq.2 (List.mem_singleton.1 dest).symm))

theorem State.PinsFitWith.unnamed (fit : s.PinsFitWith l) {a : Addr} (unknown : ¬s.knows a) :
    s.timesNamed a = 0 ∧ l.count a = 0 :=
  ⟨Nat.eq_zero_of_not_pos fun named => unknown (fit.knows_of_named named),
    List.count_eq_zero.2 fun entering => unknown (fit.entering a entering)⟩

theorem State.not_knows_iff {a : Addr} : s.placeOf a = none ↔ ¬s.knows a := by
  rw [State.placeOf_none]
  exact ⟨fun h ⟨k, e, he, same⟩ => h k e he same, fun h k e he same => h ⟨k, e, he, same⟩⟩

/-! ### Moves of records -/

theorem State.knows_of_stations (h : t.stations = s.stations) {a : Addr} (known : s.knows a) : t.knows a := by
  obtain ⟨j, e, he, same⟩ := known
  exact ⟨j, e, by rw [h]; exact he, same⟩

theorem State.PinsFitWith.of_records (fit : s.PinsFitWith l) (addrs : ∀ i : Slot, t.addrsAt i = s.addrsAt i)
    (stations : t.stations = s.stations) : t.PinsFitWith l where
  distinct := fun j k a b ha hb same => by
    rw [stations] at ha hb
    exact fit.distinct j k a b ha hb same
  pins := fun j e he => by
    rw [State.timesNamed_congr addrs]
    rw [stations] at he
    exact fit.pins j e he
  named := fun i r' hr' a ha => by
    have same := addrs i
    rw [State.addrsAt, hr', State.addrsAt] at same
    obtain ⟨r, hr, mine⟩ := Option.map_eq_some_iff.1 same.symm
    obtain ⟨owner, dest⟩ := Prod.ext_iff.1 mine
    dsimp only at owner dest
    rw [← owner, ← dest] at ha
    exact State.knows_of_stations stations (fit.named i r hr a ha)
  entering := fun a ha => State.knows_of_stations stations (fit.entering a ha)

theorem State.SameAddresses.knows (h : s.SameAddresses t) {a : Addr} (known : s.knows a) : t.knows a := by
  obtain ⟨j, e, he, same⟩ := known
  have addr := h j
  rw [he] at addr
  obtain ⟨e', he', mine⟩ := Option.map_eq_some_iff.1 addr
  exact ⟨j, e', he', mine.trans same⟩

theorem State.PinsFitWith.freeRecord (fit : s.PinsFitWith l) (hr : s.recordAt i = some r) :
    (Machine.freeRecord i s).PinsFitWith l := by
  have addresses := State.SameAddresses.freeRecord i s
  have stations : (Machine.freeRecord i s).stations =
      s.stations.map (Option.map fun x => (x.unpinnedFrom r.ownerAddr).unpinnedFrom r.destAddr) := by
    rw [freeRecord_eq hr fit.distinct]
  have named (a : Addr) : s.timesNamed a =
      (Machine.freeRecord i s).timesNamed a + (r.ownerAddr == a).toNat + (r.destAddr == a).toNat := by
    have owner := State.countRecords_freed hr fun r => r.ownerAddr == a
    have dest := State.countRecords_freed hr fun r => r.destAddr == a
    rw [State.timesNamed_eq, State.timesNamed_eq]
    omega
  refine ⟨addresses.distinct fit.distinct, fun j e he => ?_, fun j r' hr' a ha => ?_,
    fun a ha => addresses.knows (fit.entering a ha)⟩
  · rw [stations] at he
    have at_j : (s.stations[j]).map (fun x => (x.unpinnedFrom r.ownerAddr).unpinnedFrom r.destAddr) = some e := by
      rw [← he]
      exact (Vector.getElem_map ..).symm
    obtain ⟨x, hx, rfl⟩ := Option.map_eq_some_iff.1 at_j
    have pins := fit.pins j x hx
    have one (a b : Addr) : (a == b).toNat = if b = a then 1 else 0 := by
      by_cases h : b = a
      · simp [h]
      · simp [h, Ne.symm h]
    rw [named x.addr, one, one] at pins
    show x.pins - (if x.addr = r.ownerAddr then 1 else 0) - (if x.addr = r.destAddr then 1 else 0) =
      (Machine.freeRecord i s).timesNamed x.addr + l.count x.addr
    omega
  · have other : j ≠ i := by
      rintro rfl
      rw [freeRecord_recordAt hr] at hr'
      cases hr'
    rw [freeRecord_recordAt_ne other] at hr'
    exact addresses.knows (fit.named j r' hr' a ha)

/-! ### Moves of stations -/

theorem State.PinsFitWith.kept (fit : s.PinsFitWith l) {x : Vector (Option Station) 256}
    (kept : ∀ j : Place, StationKept s.stations[j] x[j]) : State.PinsFitWith l { s with stations := x } := by
  have knows {a : Addr} (pinned : 0 < s.timesNamed a + l.count a) (known : s.knows a) :
      State.knows { s with stations := x } a := by
    obtain ⟨j, e, he, rfl⟩ := known
    obtain ⟨y, hy⟩ := Option.ne_none_iff_exists'.1 ((kept j).pinned e he (by rw [fit.pins j e he]; exact pinned))
    obtain ⟨e', he', addr, _⟩ := (kept j).kept y hy
    cases he.symm.trans he'
    exact ⟨j, y, hy, addr⟩
  refine ⟨fun j k a b ha hb same => ?_, fun j y hy => ?_, fun i r hr a ha => ?_, fun a ha => ?_⟩
  · obtain ⟨a', ha', addr, _⟩ := (kept j).kept a ha
    obtain ⟨b', hb', addr', _⟩ := (kept k).kept b hb
    exact fit.distinct j k a' b' ha' hb' (addr.symm.trans (same.trans addr'))
  · obtain ⟨e, he, addr, pins⟩ := (kept j).kept y hy
    rw [pins, addr]
    exact fit.pins j e he
  · exact knows (Nat.add_pos_left (State.timesNamed_pos hr ha) _) (fit.named i r hr a ha)
  · exact knows (Nat.add_pos_right _ (List.count_pos_iff.2 ha)) (fit.entering a ha)

/-- An entry is put at a place that held none, or one of no pins, or the same address. -/
theorem State.PinsFitWith.putStation (fit : s.PinsFitWith l) {j : Place} {x : Station} {l' : List Addr}
    (place : ∀ y, s.stations[j] = some y → y.addr = x.addr ∨ y.pins = 0)
    (only : ∀ k : Place, ∀ y, s.stations[k] = some y → y.addr = x.addr → k = j)
    (pins : x.pins = s.timesNamed x.addr + l'.count x.addr) (count : ∀ a, a ≠ x.addr → l'.count a = l.count a) :
    (s.putStation j (some x)).PinsFitWith l' := by
  have entry (k : Place) : (s.putStation j (some x)).stations[k] = if k = j then some x else s.stations[k] :=
    s.putStation_get j k (some x)
  have here : (s.putStation j (some x)).knows x.addr := ⟨j, x, by rw [entry, if_pos rfl], rfl⟩
  have knows {a : Addr} (pinned : a ≠ x.addr → 0 < s.timesNamed a + l.count a) (known : s.knows a) :
      (s.putStation j (some x)).knows a := by
    by_cases same : a = x.addr
    · rw [same]
      exact here
    · obtain ⟨k, e, he, rfl⟩ := known
      refine ⟨k, e, ?_, rfl⟩
      rw [entry, if_neg]
      · exact he
      · rintro rfl
        rcases place e he with h | unpinned
        · exact same h
        · have pinned := pinned same
          rw [← fit.pins k e he, unpinned] at pinned
          cases pinned
  refine ⟨fun k k' a b ha hb same => ?_, fun k e he => ?_, fun i r hr a ha => ?_, fun a ha => ?_⟩
  · rw [entry] at ha hb
    split at ha
    · next hk =>
      cases ha
      split at hb
      · next hk' => rw [hk, hk']
      · rw [hk]
        exact (only k' b hb same.symm).symm
    · split at hb
      · next hk' =>
        cases hb
        rw [hk']
        exact only k a ha same
      · exact fit.distinct k k' a b ha hb same
  · rw [entry] at he
    show e.pins = s.timesNamed e.addr + _
    split at he
    · cases he
      exact pins
    · next apart =>
      rw [fit.pins k e he, count]
      intro same
      exact apart (only k e he same)
  · exact knows (fun _ => Nat.add_pos_left (State.timesNamed_pos hr ha) _) (fit.named i r hr a ha)
  · by_cases same : a = x.addr
    · rw [same]
      exact here
    · have before : a ∈ l := by
        rw [← List.count_pos_iff, ← count a same]
        exact List.count_pos_iff.2 ha
      exact knows (fun _ => Nat.add_pos_right _ (List.count_pos_iff.2 before)) (fit.entering a before)

/-- The address that a record names as owner or as destination, or that is pinned for a record to come. -/
def State.nameAt (s : State) (d : Addr) : Option (Slot ⊕ Slot) → Option Addr
  | none => some d
  | some (.inl k) => (s.recordAt k).map Record.ownerAddr
  | some (.inr k) => (s.recordAt k).map Record.destAddr

/-- With a slot FREE there are at most 255 names, so not every place is pinned (R170). -/
theorem State.PinsFitWith.not_full {d : Addr} (fit : s.PinsFitWith [d]) (free : s.recordAt i = none)
    (pinned : ∀ j : Place, ∃ y, s.stations[j] = some y ∧ y.pins ≠ 0) : False := by
  have name (j : Place) : ∃ (y : Station) (w : Option (Slot ⊕ Slot)), s.stations[j] = some y ∧
      s.nameAt d w = some y.addr := by
    obtain ⟨y, hy, pins⟩ := pinned j
    rw [fit.pins j y hy, State.timesNamed_eq] at pins
    by_cases entering : d = y.addr
    · exact ⟨y, none, hy, congrArg some entering⟩
    · rw [List.count_eq_zero.2 fun h => entering (List.mem_singleton.1 h).symm, Nat.add_zero] at pins
      rcases Nat.add_pos_iff_pos_or_pos.1 (Nat.pos_of_ne_zero pins) with h | h
      · obtain ⟨k, r, hr, same⟩ := State.countRecords_exists h
        exact ⟨y, some (.inl k), hy, by rw [State.nameAt, hr, ← beq_iff_eq.1 same]; rfl⟩
      · obtain ⟨k, r, hr, same⟩ := State.countRecords_exists h
        exact ⟨y, some (.inr k), hy, by rw [State.nameAt, hr, ← beq_iff_eq.1 same]; rfl⟩
  choose y w hy named using name
  have injective : Function.Injective w := by
    intro j k same
    have addr : y j = y j → (y j).addr = (y k).addr := fun _ =>
      Option.some.inj ((named j).symm.trans (same ▸ named k))
    exact fit.distinct j k _ _ (hy j) (hy k) (addr rfl)
  have card : (Finset.univ : Finset Place).card ≤
      ((Finset.univ.erase (some (.inl i) : Option (Slot ⊕ Slot))).erase (some (.inr i))).card := by
    refine Finset.card_le_card_of_injOn w (fun j _ => ?_) injective.injOn
    have notFree : w j ≠ some (.inl i) ∧ w j ≠ some (.inr i) := by
      constructor
      all_goals
        intro h
        have none_named := named j
        rw [h, State.nameAt, free] at none_named
        cases none_named
    simp [notFree.1, notFree.2]
  rw [Finset.card_erase_of_mem (by simp), Finset.card_erase_of_mem (Finset.mem_univ _)] at card
  simp [Slot, Place] at card

theorem State.PinsFitWith.stationStep {g h : Ghost} (fit : s.PinsFitWith g.toEnter) (m : StationStep g s h t) :
    t.PinsFitWith h.toEnter := by
  cases m with
  | kept h => exact fit.kept h
  | @learned h l s j x free unknown unpinned =>
    have unknown := State.not_knows_iff.1 unknown
    refine fit.putStation (fun y hy => by rw [free] at hy; cases hy)
      (fun k y hy same => absurd ⟨k, y, hy, same⟩ unknown)
      ?_ fun _ _ => rfl
    rw [unpinned, (fit.unnamed unknown).1]
    rfl
  | @pinned h l a s j x hx =>
    refine fit.putStation (x := { x with pins := x.pins + 1 }) (fun y hy => ?_)
      (fun k y hy same => fit.distinct k j y x hy hx same) ?_ fun a other => List.count_cons_of_ne (Ne.symm other)
    · cases hx.symm.trans hy
      exact .inl rfl
    · show x.pins + 1 = s.timesNamed x.addr + (x.addr :: a).count x.addr
      rw [fit.pins j x hx, List.count_cons_self]
      rfl
  | @made h l a s j x place unknown once =>
    have unknown := State.not_knows_iff.1 unknown
    refine fit.putStation (fun y hy => .inr (place y hy)) (fun k y hy same => absurd ⟨k, y, hy, same⟩ unknown) ?_
      fun a other => List.count_cons_of_ne (Ne.symm other)
    obtain ⟨unnamed, notEntering⟩ := fit.unnamed unknown
    rw [once, unnamed, List.count_cons_self]
    exact (congrArg (fun n => 0 + (n + 1)) notEntering).symm
  | full pins free => exact (fit.not_full free pins).elim

theorem Moves.pinsFit {g h : Ghost} (m : Moves query g s h t) (fit : s.PinsFitWith g.toEnter) :
    t.PinsFitWith h.toEnter := by
  induction m with
  | refl => exact fit
  | trans _ _ ih ih' => exact ih' (ih fit)
  | calm h => exact fit.of_records h.addrsAt h.stations
  | @master g h s t m =>
    have fit := fit.of_records (State.addrsAt_of_slots m.kept.slots) m.kept.stations
    cases m <;> exact fit
  | station m => exact fit.stationStep m
  | @ended g s i r hr standing why =>
    refine fit.of_records (fun j => ?_) rfl
    by_cases here : j = i
    · subst here
      rw [State.addrsAt, State.addrsAt, hr, State.recordAt, State.withEnded_slot]
      rfl
    · rw [State.addrsAt, State.recordAt, State.withEnded_other here]
      rfl
  | freed hr ending => exact fit.freeRecord hr
  | @withdrawn h a s i r hr pending =>
    exact (fit.of_records (t := withdraw i s) (fun _ => rfl) rfl).freeRecord (s := withdraw i s) hr
  | policy => exact fit.of_records (fun _ => rfl) rfl
  | timing => exact fit.of_records (fun _ => rfl) rfl
  | switched => exact fit.of_records (State.addrsAt_of_slots (calendarSwitch_slots _)) (by rw [calendarSwitch_frame])
  | @installed h l a s i r st hr pending standing empty n =>
    refine fit.of_records (fun j => ?_) rfl
    by_cases here : j = i
    · subst here
      rw [State.addrsAt, State.addrsAt, hr, State.withRecord_recordAt]
      rfl
    · rw [State.addrsAt, State.recordAt, s.withRecord_slot_ne here]
      rfl
  | passed => exact fit

/-- The record for which both addresses have been pinned is entered (R170). -/
theorem State.PinsFitWith.withGrant (fit : v.PinsFitWith [r.ownerAddr, r.destAddr]) (free : v.recordAt i = none) :
    (v.withGrant i r).PinsFitWith [] where
  distinct := fit.distinct
  pins := fun j e he => by
    have entered (f : Record → Bool) := State.countRecords_entered free (v.withGrant_recordAt i r)
      (fun _ h => v.withGrant_recordAt_ne h r) f
    have counted : [r.ownerAddr, r.destAddr].count e.addr =
        (r.ownerAddr == e.addr).toNat + (r.destAddr == e.addr).toNat := by
      rw [List.count_cons, List.count_singleton]
      cases r.ownerAddr == e.addr <;> cases r.destAddr == e.addr <;> rfl
    have pins : e.pins = v.timesNamed e.addr + [r.ownerAddr, r.destAddr].count e.addr := fit.pins j e he
    rw [pins, counted, State.timesNamed_eq, State.timesNamed_eq, entered, entered]
    show _ = _ + 0
    omega
  named := fun j r' hr' a ha => by
    by_cases here : j = i
    · subst here
      rw [v.withGrant_recordAt] at hr'
      cases hr'
      exact fit.entering a ha
    · rw [v.withGrant_recordAt_ne here] at hr'
      exact fit.named j r' hr' a ha
  entering := fun _ h => absurd h List.not_mem_nil

theorem Grants.pinsFit (grants : Grants s t) (fit : s.PinsFitWith []) : t.PinsFitWith [] := by
  cases grants with
  | @intro rq c i l0 ret place v granted pins shrunk =>
    exact State.PinsFitWith.withGrant (r := grantedRecord rq c l0 ret place) ((pins true).pinsFit fit)
      (shrunk.free _ (State.freeSlot_eq.1 granted.slot).1)

theorem resetWith_pinsFit (straps : Straps) (lines : Vector PhyLines 8) (pending : List Instr) :
    (State.resetWith straps lines pending).PinsFitWith [] where
  distinct := fun j k a b ha => by rw [resetWith_station] at ha; cases ha
  pins := fun j e he => by rw [resetWith_station] at he; cases he
  named := fun i r hr => by rw [resetWith_recordAt] at hr; cases hr
  entering := fun _ h => absurd h List.not_mem_nil

end Pins

/-- One request at most for each of the 16 masters (R72). -/
theorem State.MastersFitWith.queue_length {s : State} (fit : s.MastersFitWith none) :
    s.admission.queue.length ≤ 16 := by
  have nodup : (s.admission.queue.map Request.master).Nodup := fit.one_each
  have length := nodup.length_le_card
  rwa [List.length_map, Fintype.card_fin] at length

/-- Settles O59: every move keeps the counts, with the request in hand and the pins of a record to come counted too. -/
theorem heldCountsStayRight : Obligations.HeldCountsStayRight := by
  refine ⟨fun s t fit h => ?_, fun s t fit h => ?_⟩
  · have after := step_keeps (Inv := fun g s => s.MastersFitWith g.hand) Moves.mastersFit Grants.mastersFit
      resetWith_mastersFit h (State.mastersFit_iff.1 fit)
    exact ⟨State.mastersFit_iff.2 after, after.queue_length⟩
  · exact State.pinsFit_iff.2 (step_keeps (Inv := fun g s => s.PinsFitWith g.toEnter) Moves.pinsFit Grants.pinsFit
      resetWith_pinsFit h (State.pinsFit_iff.1 fit))

/-- Settles O60: the values of the release of RESET, invariant by invariant. -/
theorem resetStateIsSound : Obligations.ResetStateIsSound :=
  ⟨resetWith_timeBaseSound .., nofun, resetWith_calendarsSound .., State.tableFits_iff.2 (resetWith_tableFits ..),
    resetWith_viewsLawful .., resetWith_queuesBounded .., State.mastersFit_iff.2 (resetWith_mastersFit ..),
    resetWith_repliesFit .., State.pinsFit_iff.2 (resetWith_pinsFit ..)⟩

end Sys2Proof.Machine
